-- ==== Sys2Proof/Word.lean ====
section
/-!
DEFINITION. The word types of the TM1651-SIC (00_scope.md rules R7 and R11, 20_memory.md rule R39).
A bit and a line level are a `Bool`, where `true` is 1 (high) and `false` is 0 (low).
-/

namespace Sys2Proof

/-- A wire byte or an 8-bit operand (20_memory.md rule R39). -/
abbrev Byte := BitVec 8

/-- A command word, or an internal sequencer word: 16 bits, taken as one unit (30_encoding.md rule R48). -/
abbrev CmdWord := BitVec 16

/-- A diagnostic counter: 32 bits (10_state.md rule R25). -/
abbrev Count := BitVec 32

/-- A fill level or a hardware brightness code: 3 bits (10_state.md rules R17 and R20). -/
abbrev Bits3 := BitVec 3

end Sys2Proof
end

