-- ==== Sys2Proof/Config.lean ====
section
/-!
DEFINITION. The configuration parameters of 00_scope.md rule R6, their admitted values, the reference configuration
REF, and the two values the spec leaves open: the cycle time T_US (92_eei_decisions.md D19) and the peripheral's
answers (00_scope.md rule R5).
-/

namespace Sys2Proof

/-- The parameters of 00_scope.md rule R6. FRAME_BYTES is fixed and stands below; H_US and Q_US are derived. -/
structure Config where
  /-- T_US: the full bus-cycle duration in microseconds. -/
  tUs : Nat
  /-- MAX_LEVEL: the highest fill level, 0..7. -/
  maxLevel : Bits3
  /-- ACK_SAMPLES: the most DIO samples of one acknowledgment phase. -/
  ackSamples : Nat
  /-- BLINK_SUPPORTED: the blink-capable variant is present. -/
  blinkSupported : Bool
  /-- HAS_COUNTERS: the error and attempt counters are present. -/
  hasCounters : Bool
  /-- BRIGHTNESS_RESENDS_LEVEL: the brightness setter also re-sends the level. -/
  brightnessResendsLevel : Bool
  /-- LOG_ENABLED: the diagnostic channel emits NACK events. -/
  logEnabled : Bool
  /-- DIO_LATCH_KEPT: the DIO output latch survives a direction change. -/
  dioLatchKept : Bool
  /-- CMD_ADDR_FIXED: the chip byte that selects fixed addressing. -/
  cmdAddrFixed : Byte
  /-- CMD_ADDR_AUTO: the chip byte that selects auto-increment addressing. -/
  cmdAddrAuto : Byte
  /-- ADDR_LEVEL: the chip byte that selects the level register. -/
  addrLevel : Byte
  /-- ADDR_FRAME: the chip byte that gives the frame write's start address. -/
  addrFrame : Byte
  /-- DISP_ON_BASE: the "on" base value of the power byte. -/
  dispOnBase : Byte
  /-- DISP_OFF_BASE: the "off" base value of the power byte. -/
  dispOffBase : Byte
  /-- FRAME_SEG: the segment pattern written when blink is on. -/
  frameSeg : Byte
  /-- CODE_DARKEST: the hardware brightness code of darkest. -/
  codeDarkest : Bits3
  /-- CODE_TYPICAL: the hardware brightness code of typical. -/
  codeTypical : Bits3
  /-- CODE_BRIGHTEST: the hardware brightness code of brightest. -/
  codeBrightest : Bits3
  deriving DecidableEq, Repr

namespace Config

/-- FRAME_BYTES, the number of frame data bytes: fixed at 3 (00_scope.md rule R6). -/
def frameBytes : Nat := 3

/-- H_US: the half-cycle delay, truncating (40_bus_engine.md rule R67). -/
def hUs (c : Config) : Nat := c.tUs / 2

/-- Q_US: the quarter-cycle delay, truncating (40_bus_engine.md rule R67). -/
def qUs (c : Config) : Nat := c.tUs / 4

/-- The admitted configurations. The domains of MAX_LEVEL and of the codes that are 0..7 are in their types. The rest
of 00_scope.md rule R6's domains stand here, with 10_state.md rule R20's "0 in every configuration" for CODE_DARKEST
(notes/assumptions/19.md). -/
abbrev wf (c : Config) : Prop :=
  4 ≤ c.tUs ∧ 1 ≤ c.ackSamples ∧ c.codeDarkest = 0#3 ∧ 3 ≤ c.codeBrightest.toNat

/-- How far T_US lies above its least admitted value 4. OPEN in the spec (92_eei_decisions.md D19), so it has no body:
no proof can use a value of it (notes/assumptions/2.md). -/
opaque tUsAbove : Nat

/-- The peripheral's answer to the n-th DIO read, where State lists no answer for it: "any bit, under no law"
(00_scope.md rule R5, 20_memory.md rule R43). A free value, with no body (notes/assumptions/3.md). -/
opaque dioAnswer : Nat → Bool

/-- REF, the reference configuration of 00_scope.md rule R6, at the cycle time `t`. The chip bytes are the spec's own
general-knowledge values (93_implementation_defined.md G2; notes/assumptions/18.md). -/
def refAt (t : Nat) : Config where
  tUs := t
  maxLevel := 7#3
  ackSamples := 200
  blinkSupported := true
  hasCounters := true
  brightnessResendsLevel := false
  logEnabled := true
  dioLatchKept := true
  cmdAddrFixed := 0x44#8
  cmdAddrAuto := 0x40#8
  addrLevel := 0xC0#8
  addrFrame := 0xC1#8
  dispOnBase := 0x88#8
  dispOffBase := 0x80#8
  frameSeg := 0x40#8
  codeDarkest := 0#3
  codeTypical := 2#3
  codeBrightest := 7#3

/-- REF with T_US left open: any admitted value. -/
def ref : Config := refAt (4 + tUsAbove)

end Config

end Sys2Proof
end

