-- ==== Sys2Proof/Syntax.lean ====
section
/-!
DEFINITION. The instructions, one constructor for each row of spec/opcode_table.json: the ten host commands of
30_encoding.md rule R49 and the thirteen internal sequencer names of rule R58. And the closed list of refusal reasons
of 60_exceptions.md rule R112.
-/

namespace Sys2Proof

/-- The reasons of 60_exceptions.md rule R112. -/
inductive RefuseReason where
  /-- ILLEGAL_OPCODE: the opcode names no command (30_encoding.md rule R55). -/
  | illegalOpcode
  /-- VARIANT_ABSENT: the configuration lacks the command (30_encoding.md rule R56). -/
  | variantAbsent
  /-- RESERVED_OPERAND: a reserved operand field is not 0 (30_encoding.md rule R54). -/
  | reservedOperand
  /-- ALREADY_CONFIGURED: a second SETUP (42_display_commands.md rule R91). -/
  | alreadyConfigured
  /-- NOT_CONFIGURED: a command before SETUP (42_display_commands.md rule R91). -/
  | notConfigured
  deriving DecidableEq, Repr

/-- The rows of spec/opcode_table.json. -/
inductive Instr where
  /-- SETUP (R92). -/
  | setup
  /-- SET_BRIGHTNESS raw (R93). -/
  | setBrightness (raw : Byte)
  /-- SET_LEVEL n (R94). -/
  | setLevel (n : Byte)
  /-- SET_LEVEL_PERCENT p (R95). -/
  | setLevelPercent (p : Byte)
  /-- TURN_ON (R97). -/
  | turnOn
  /-- TURN_OFF (R98). -/
  | turnOff
  /-- SET_BLINK_ON (R99). -/
  | setBlinkOn
  /-- SET_BLINK_OFF (R100). -/
  | setBlinkOff
  /-- RESET_ERROR_COUNTERS (R101). -/
  | resetErrorCounters
  /-- READ_COUNTERS (R102). -/
  | readCounters
  /-- U_START (R69). -/
  | uStart
  /-- U_STOP (R70). -/
  | uStop
  /-- U_SENDBIT b (R71). -/
  | uSendbit (b : Bool)
  /-- U_RAISECLK (R72). -/
  | uRaiseclk
  /-- U_TXBYTE v (R73). -/
  | uTxbyte (v : Byte)
  /-- U_ACKPHASE (R74). -/
  | uAckphase
  /-- T_FIXMODE (R83). -/
  | tFixmode
  /-- T_LEVELDATA n (R85). -/
  | tLeveldata (n : Bits3)
  /-- T_POWER on (R86). -/
  | tPower (on : Bool)
  /-- T_AUTOMODE (R88). -/
  | tAutomode
  /-- T_FRAMEDATA on (R89). -/
  | tFramedata (on : Bool)
  /-- T_LEVELWRITE n (R84). -/
  | tLevelwrite (n : Bits3)
  /-- T_FRAMEWRITE on (R87). -/
  | tFramewrite (on : Bool)
  deriving DecidableEq, Repr

end Sys2Proof
end

