-- ==== Sys2Proof/WellFormed.lean ====
section
/-!
DEFINITION. Which instructions a configuration has: the "present when" column of 30_encoding.md rule R49, the
blink-capable variant's frame operations (41_chip_commands.md rule R87) and the operand range of the level operations
(41_chip_commands.md rules R84 and R85).
-/

namespace Sys2Proof

namespace Instr

/-- The ten commands the host can issue on the command port (30_encoding.md rule R49). The internal names are "not
host-issuable" (rule R58). -/
def hostIssuable : Instr → Bool
  | setup | setBrightness _ | setLevel _ | setLevelPercent _ | turnOn | turnOff => true
  | setBlinkOn | setBlinkOff | resetErrorCounters | readCounters => true
  | uStart | uStop | uSendbit _ | uRaiseclk | uTxbyte _ | uAckphase => false
  | tFixmode | tLeveldata _ | tPower _ | tAutomode | tFramedata _ | tLevelwrite _ | tFramewrite _ => false

/-- The variant that holds the instruction is present: 30_encoding.md rules R49 and R56 for the commands,
41_chip_commands.md rule R87 for the frame operations. -/
def present (c : Config) : Instr → Bool
  | setBlinkOn | setBlinkOff => c.blinkSupported
  | resetErrorCounters | readCounters => c.hasCounters
  | tAutomode | tFramedata _ | tFramewrite _ => c.blinkSupported
  | setup | setBrightness _ | setLevel _ | setLevelPercent _ | turnOn | turnOff => true
  | uStart | uStop | uSendbit _ | uRaiseclk | uTxbyte _ | uAckphase => true
  | tFixmode | tLeveldata _ | tPower _ | tLevelwrite _ => true

/-- The level operand of the two level operations lies in 0..MAX_LEVEL (41_chip_commands.md rules R84 and R85). Every
other operand takes every value of its type. -/
def operandInRange (c : Config) : Instr → Bool
  | tLeveldata n | tLevelwrite n => decide (n.toNat ≤ c.maxLevel.toNat)
  | setup | setBrightness _ | setLevel _ | setLevelPercent _ | turnOn | turnOff => true
  | setBlinkOn | setBlinkOff | resetErrorCounters | readCounters => true
  | uStart | uStop | uSendbit _ | uRaiseclk | uTxbyte _ | uAckphase => true
  | tFixmode | tPower _ | tAutomode | tFramedata _ | tFramewrite _ => true

/-- The instruction is one the configuration has, with operands in range. -/
def wellFormed (c : Config) (i : Instr) : Bool := i.present c && i.operandInRange c

end Instr

end Sys2Proof
end

