-- ==== Sys2Proof/Decode.lean ====
section
/-!
DEFINITION. The decoder of the command port (30_encoding.md rules R48, R49, R54 to R56, R63, with the check order of
60_exceptions.md rule R111), the decoder of the internal sequencer words (rule R58), and after them the encoder, written
from the same tables.
-/

namespace Sys2Proof

/-- OP, bits 15:8 of a word (30_encoding.md rule R48). -/
def opField (w : CmdWord) : Byte := w.extractLsb' 8 8

/-- IMM8, bits 7:0 of a word (30_encoding.md rules R48 and R52). -/
def immField (w : CmdWord) : Byte := w.extractLsb' 0 8

/-- A command whose operand is reserved: refused RESERVED_OPERAND unless IMM8 = 0 (30_encoding.md rule R54). -/
def decodeBare (imm : Byte) (i : Instr) : Except RefuseReason Instr :=
  if imm = 0#8 then .ok i else .error .reservedOperand

/-- A command of a variant: refused VARIANT_ABSENT where the variant is absent (30_encoding.md rule R56), before the
operand is looked at (60_exceptions.md rule R111). -/
def decodeVariant (there : Bool) (r : Except RefuseReason Instr) : Except RefuseReason Instr :=
  if there then r else .error .variantAbsent

/-- The decoder of the command port: total on every 16-bit word (30_encoding.md rule R63). -/
def decode (c : Config) (w : CmdWord) : Except RefuseReason Instr :=
  let imm := immField w
  match (opField w).toNat with
  | 0x01 => decodeBare imm .setup
  | 0x02 => .ok (.setBrightness imm)
  | 0x03 => .ok (.setLevel imm)
  | 0x04 => .ok (.setLevelPercent imm)
  | 0x05 => decodeBare imm .turnOn
  | 0x06 => decodeBare imm .turnOff
  | 0x07 => decodeVariant c.blinkSupported (decodeBare imm .setBlinkOn)
  | 0x08 => decodeVariant c.blinkSupported (decodeBare imm .setBlinkOff)
  | 0x09 => decodeVariant c.hasCounters (decodeBare imm .resetErrorCounters)
  | 0x0A => decodeVariant c.hasCounters (decodeBare imm .readCounters)
  | _ => .error .illegalOpcode

/-- An internal name whose argument is 0 (30_encoding.md rule R58). -/
def uopBare (arg : Byte) (i : Instr) : Option Instr :=
  if arg = 0#8 then some i else none

/-- An internal name whose argument is one bit, with bits 7:1 = 0 (30_encoding.md rule R58). -/
def uopBit (arg : Byte) (mk : Bool → Instr) : Option Instr :=
  if arg.extractLsb' 1 7 = 0#7 then some (mk (arg.getLsbD 0)) else none

/-- An internal name whose argument is a level 0..7, with bits 7:3 = 0 (30_encoding.md rule R58). -/
def uopLevel (arg : Byte) (mk : Bits3 → Instr) : Option Instr :=
  if arg.extractLsb' 3 5 = 0#5 then some (mk (arg.extractLsb' 0 3)) else none

/-- The decoder of the internal sequencer words (30_encoding.md rule R58, format UOP). It is not the command port's:
there, every one of these words is ILLEGAL_OPCODE (rule R55). -/
def decodeUop (w : CmdWord) : Option Instr :=
  let arg := immField w
  match (opField w).toNat with
  | 0xF0 => uopBare arg .uStart
  | 0xF1 => uopBare arg .uStop
  | 0xF2 => uopBit arg .uSendbit
  | 0xF3 => uopBare arg .uRaiseclk
  | 0xF4 => some (.uTxbyte arg)
  | 0xF5 => uopBare arg .uAckphase
  | 0xF6 => uopBare arg .tFixmode
  | 0xF7 => uopLevel arg .tLeveldata
  | 0xF8 => uopBit arg .tPower
  | 0xF9 => uopBare arg .tAutomode
  | 0xFA => uopBit arg .tFramedata
  | 0xFB => uopLevel arg .tLevelwrite
  | 0xFC => uopBit arg .tFramewrite
  | _ => none

/-- The words of format UOP, by their opcode: the internal names 0xF0 to 0xFC (30_encoding.md rules R55 and R58). -/
def isUopWord (w : CmdWord) : Bool := decide (0xF0 ≤ (opField w).toNat ∧ (opField w).toNat ≤ 0xFC)

/-- The opcode of an instruction (30_encoding.md rules R49 and R58). -/
def opcode : Instr → Byte
  | .setup => 0x01#8
  | .setBrightness _ => 0x02#8
  | .setLevel _ => 0x03#8
  | .setLevelPercent _ => 0x04#8
  | .turnOn => 0x05#8
  | .turnOff => 0x06#8
  | .setBlinkOn => 0x07#8
  | .setBlinkOff => 0x08#8
  | .resetErrorCounters => 0x09#8
  | .readCounters => 0x0A#8
  | .uStart => 0xF0#8
  | .uStop => 0xF1#8
  | .uSendbit _ => 0xF2#8
  | .uRaiseclk => 0xF3#8
  | .uTxbyte _ => 0xF4#8
  | .uAckphase => 0xF5#8
  | .tFixmode => 0xF6#8
  | .tLeveldata _ => 0xF7#8
  | .tPower _ => 0xF8#8
  | .tAutomode => 0xF9#8
  | .tFramedata _ => 0xFA#8
  | .tLevelwrite _ => 0xFB#8
  | .tFramewrite _ => 0xFC#8

/-- A bit as an argument byte: bit 0, with bits 7:1 = 0 (30_encoding.md rule R58). -/
def bitArg (b : Bool) : Byte := if b then 1#8 else 0#8

/-- The operand field of an instruction; 0 where the field is reserved (30_encoding.md rules R54 and R58). -/
def operandField : Instr → Byte
  | .setBrightness raw => raw
  | .setLevel n => n
  | .setLevelPercent p => p
  | .uSendbit b => bitArg b
  | .uTxbyte v => v
  | .tLeveldata n => n.setWidth 8
  | .tPower on => bitArg on
  | .tFramedata on => bitArg on
  | .tLevelwrite n => n.setWidth 8
  | .tFramewrite on => bitArg on
  | .setup | .turnOn | .turnOff | .setBlinkOn | .setBlinkOff => 0#8
  | .resetErrorCounters | .readCounters => 0#8
  | .uStart | .uStop | .uRaiseclk | .uAckphase | .tFixmode | .tAutomode => 0#8

/-- The encoder: `word = (OP << 8) | IMM8` (30_encoding.md rule R48). -/
def encode (i : Instr) : CmdWord := opcode i ++ operandField i

/-- The instruction of a table word, numbered as spec/opcode_table.json numbers it. The 16-bit word is one unit
(20_memory.md rule R38), so it is laid out as itself. A UOP word is read by the sequencer's decoder, every other word by
the command port's, in the reference configuration. There is no instruction longer than 16 bits. -/
def decodeTableWord (nbits w : Nat) : Option Instr :=
  if nbits ≤ 16 ∧ w < 2 ^ 16 then
    if isUopWord (BitVec.ofNat 16 w) then decodeUop (BitVec.ofNat 16 w)
    else (decode Config.ref (BitVec.ofNat 16 w)).toOption
  else none

end Sys2Proof
end

