-- ==== Sys2Proof/Machine/State.lean ====
section
/-!
DEFINITION. The state of the TM1651-SIC: the thirteen registers of 10_state.md rule R17, the configuration they run
under (00_scope.md rule R6), and the model's own fields: the host's command list and position (10_state.md rule R16),
the trace (00_scope.md rule R9), the READ_COUNTERS results (70_reset_and_hazards.md rule R145), the peripheral's answers
(00_scope.md rule R5) and the internal sequencer slot (30_encoding.md rule R58). Then the reset state (70 rule R129).
-/

namespace Sys2Proof.Machine

/-- A line level or no known level: `UNK`, 0 or 1 (10_state.md rules R17, R27 and R28). `UNK` is the spec's own value
and no rule reads it as a level (rule R29; notes/assumptions/23.md). -/
inductive Level where
  /-- UNK: no value. -/
  | unk
  /-- The level 0 (false) or 1 (true). -/
  | known (b : Bool)
  deriving DecidableEq, Repr

/-- CLK_DIR (10_state.md rule R27): no rule configures CLK as an input. -/
inductive ClkDir where
  /-- UNCFG. -/
  | uncfg
  /-- OUT. -/
  | out
  deriving DecidableEq, Repr

/-- DIO_DIR (10_state.md rule R28). -/
inductive DioDir where
  /-- UNCFG. -/
  | uncfg
  /-- OUT. -/
  | out
  /-- IN. -/
  | inp
  deriving DecidableEq, Repr

/-- The brightness class that BRIGHT holds (10_state.md rule R19). -/
inductive BrightClass where
  /-- DARKEST, encoded 0. -/
  | darkest
  /-- TYPICAL, encoded 1. -/
  | typical
  /-- BRIGHTEST, encoded 2. -/
  | brightest
  deriving DecidableEq, Repr

/-- The trace alphabet of 00_scope.md rule R9. -/
inductive Event where
  /-- CLK_CFG_OUT. -/
  | clkCfgOut
  /-- DIO_CFG_OUT. -/
  | dioCfgOut
  /-- DIO_CFG_IN. -/
  | dioCfgIn
  /-- CLK_W(b). -/
  | clkW (b : Bool)
  /-- DIO_W(b). -/
  | dioW (b : Bool)
  /-- DIO_R(b). -/
  | dioR (b : Bool)
  /-- DELAY(d), d in microseconds. -/
  | delay (d : Nat)
  /-- DIAG_NACK(v). -/
  | diagNack (v : Byte)
  deriving DecidableEq, Repr

/-- The reasons the machine stops with a fault: none. "No operation is fatal; there is no crash/abort path in this core"
(60_exceptions.md rule R110; 93_implementation_defined.md part 1: no behaviour is treated as fault or stuck). -/
inductive Fault where
  deriving DecidableEq, Repr

/-- The reasons a step has no meaning. A refusal of the SPEC (60_exceptions.md rule R112) is none of these: it has an
effect (rule R116) and is a next state. All three are safe: no claim about a next state covers them. -/
inductive Refusal where
  /-- Raised by an arm of `exec` that has no meaning yet. Safe. -/
  | notModelled (mnemonic : String)
  /-- Raised by `step` when the internal sequencer slot holds a word that 30_encoding.md rule R58 does not list. Safe:
  the spec gives such a word no effect (notes/assumptions/12.md). -/
  | unknownSequencerWord (w : CmdWord)
  /-- Raised by the meanings of T_AUTOMODE, T_FRAMEDATA and T_FRAMEWRITE in a variant without blink: the frame write
  "exists only in the blink-capable variant" (41_chip_commands.md rule R87). Safe. -/
  | frameOperationAbsent
  deriving DecidableEq, Repr

/-- The state. The first thirteen fields are the registers of 10_state.md rule R17; the others are named in the
header. -/
structure State where
  /-- LEVEL, the fill level (rule R18). -/
  level : Bits3
  /-- BRIGHT, the brightness class (rule R19). -/
  bright : BrightClass
  /-- DISP_ON (rule R21). -/
  dispOn : Bool
  /-- BLINK_ON (rule R22). -/
  blinkOn : Bool
  /-- CONFIGURED (rule R24). -/
  configured : Bool
  /-- ERR_CNT, the NACKed bytes (rule R25). -/
  errCnt : Count
  /-- ATT_CNT, the attempted bytes (rule R25). -/
  attCnt : Count
  /-- CLK_DIR (rule R27). -/
  clkDir : ClkDir
  /-- CLK_LVL (rule R27). -/
  clkLvl : Level
  /-- DIO_DIR (rule R28). -/
  dioDir : DioDir
  /-- DIO_LATCH (rule R28). -/
  dioLatch : Level
  /-- REFUSED (rule R31). -/
  refused : Bool
  /-- REFUSE_REASON; `none` is NONE (rule R31). -/
  refuseReason : Option RefuseReason
  /-- The configuration (00_scope.md rule R6). No step writes it (10_state.md rule R32; notes/assumptions/1.md). -/
  cfg : Config
  /-- The host's command words (10_state.md rule R16; notes/assumptions/4.md). -/
  program : List CmdWord
  /-- The index of the next command in `program` (10_state.md rule R16). -/
  position : Nat
  /-- An internal sequencer word that waits to be run (30_encoding.md rule R58; notes/assumptions/7.md). -/
  seqSlot : Option CmdWord
  /-- The events so far, newest first (00_scope.md rule R9; notes/assumptions/5.md). -/
  events : List Event
  /-- The READ_COUNTERS results so far, oldest first: pairs (ERR_CNT, ATT_CNT) (30_encoding.md rule R64). -/
  results : List (Count × Count)
  /-- The peripheral's answers to the coming DIO reads (00_scope.md rule R5; notes/assumptions/3.md). -/
  dioAnswers : List Bool
  /-- How many DIO reads have been made: the counter that the free answer is applied to. -/
  dioReads : Nat
  deriving DecidableEq, Repr

/-- The trace: the events in the order they occurred (00_scope.md rule R9). -/
def State.trace (s : State) : List Event := s.events.reverse

/-- The state right after reset, under the configuration `c` (70_reset_and_hazards.md rule R129). -/
def State.resetWith (c : Config) : State where
  level := 0#3
  bright := .typical
  dispOn := true
  blinkOn := false
  configured := false
  errCnt := 0#32
  attCnt := 0#32
  clkDir := .uncfg
  clkLvl := .unk
  dioDir := .uncfg
  dioLatch := .unk
  refused := false
  refuseReason := none
  cfg := c
  program := []
  position := 0
  seqSlot := none
  events := []
  results := []
  dioAnswers := []
  dioReads := 0

/-- The machine right after reset, in the reference configuration with T_US left open. -/
def State.reset : State := State.resetWith Config.ref

end Sys2Proof.Machine
end

