-- ==== Sys2Proof/Machine/Flags.lean ====
section
/-!
DEFINITION. The block has no persistent flag (10_state.md rule R30). Its one flag is the acknowledgment result of a
byte, local to TransmitByte; what it leaves behind are the two diagnostic counters (40_bus_engine.md rules R75 and R76).
-/

namespace Sys2Proof.Machine

/-- The acknowledgment result of a phase whose reads were `rs`: 1 iff some read returned 0 (40_bus_engine.md rule
R75). -/
def ackOf (rs : List Bool) : Bool := rs.any (fun b => !b)

/-- `CNT <- (CNT + 1) mod 2^32` (10_state.md rule R26). -/
def bump (n : Count) : Count := n + 1#32

/-- The counter side effect of one transmitted byte (40_bus_engine.md rules R73 and R76). -/
def countByte (ack : Bool) (s : State) : State :=
  if s.cfg.hasCounters then
    { s with attCnt := bump s.attCnt, errCnt := if ack then s.errCnt else bump s.errCnt }
  else s

end Sys2Proof.Machine
end

