-- ==== Sys2Proof/Machine/Operands.lean ====
section
/-!
DEFINITION. The operand computations: the clamp (00_scope.md rule R7), the brightness class and its code
(30_encoding.md rule R53, 10_state.md rules R19 and R20), the fill levels (42_display_commands.md rules R94 to R96),
and the wire bytes (30_encoding.md rules R50, R51 and R59).
-/

namespace Sys2Proof.Machine

/-- `clamp(x, lo, hi) = min(max(x, lo), hi)` (00_scope.md rule R7). -/
def clamp (x lo hi : Nat) : Nat := min (max x lo) hi

/-- BrightClass(raw) (30_encoding.md rule R53). -/
def brightClass (raw : Byte) : BrightClass :=
  if raw.toNat ≤ 1 then .darkest
  else if raw.toNat = 2 then .typical
  else .brightest

/-- The 2-bit encoding of BRIGHT (10_state.md rule R19). -/
def BrightClass.bits : BrightClass → BitVec 2
  | .darkest => 0#2
  | .typical => 1#2
  | .brightest => 2#2

/-- The hardware brightness code of a class (10_state.md rule R20). -/
def code (c : Config) : BrightClass → Bits3
  | .darkest => c.codeDarkest
  | .typical => c.codeTypical
  | .brightest => c.codeBrightest

/-- The level that SET_LEVEL stores: `clamp(n, 0, MAX_LEVEL)` (42_display_commands.md rule R94). -/
def clampLevel (c : Config) (n : Nat) : Bits3 := BitVec.ofNat 3 (clamp n 0 c.maxLevel.toNat)

/-- LevelFromPercent(q) (42_display_commands.md rule R96), on naturals with truncating division. -/
def levelFromPercent (c : Config) (q : Nat) : Nat := (q * c.maxLevel.toNat + 50) / 100

/-- The level that SET_LEVEL_PERCENT stores (42_display_commands.md rule R95). -/
def percentLevel (c : Config) (p : Byte) : Bits3 :=
  clampLevel c (levelFromPercent c (clamp p.toNat 0 100))

/-- PATTERN(n) = (1 << n) - 1 (30_encoding.md rule R50). -/
def pattern (n : Bits3) : Byte := (1#8 <<< n.toNat) - 1#8

/-- POWER_BYTE(on, c) (30_encoding.md rule R51). -/
def powerByte (c : Config) (on : Bool) (k : Bits3) : Byte :=
  (if on then c.dispOnBase else c.dispOffBase) ||| k.setWidth 8

/-- FRAME_DATA(on) (30_encoding.md rule R59). -/
def frameData (c : Config) (on : Bool) : Byte := if on then c.frameSeg else 0x00#8

end Sys2Proof.Machine
end

