-- ==== Sys2Proof/Machine/Ops.lean ====
section
/-!
DEFINITION. The shared operations: the pin and timebase primitives (20_memory.md rules R40 to R45), the derived wire
levels (10_state.md rule R29), the refusal (60_exceptions.md rule R116), which is the only thing in this block that
takes the place of an exception, and the command port (10_state.md rule R16).
-/

namespace Sys2Proof.Machine

/-- Append one event to the trace (00_scope.md rule R8). -/
def emit (e : Event) (s : State) : State := { s with events := e :: s.events }

/-- `PinCfgOut(CLK)` (20_memory.md rule R40). -/
def pinCfgOutClk (s : State) : State := emit .clkCfgOut { s with clkDir := .out }

/-- `PinCfgOut(DIO)` (20_memory.md rule R41). -/
def pinCfgOutDio (s : State) : State :=
  emit .dioCfgOut { s with dioDir := .out, dioLatch := if s.cfg.dioLatchKept then s.dioLatch else .unk }

/-- `PinCfgIn(DIO)` (20_memory.md rule R41). -/
def pinCfgInDio (s : State) : State := emit .dioCfgIn { s with dioDir := .inp }

/-- `PinWrite(CLK, b)` (20_memory.md rule R42). -/
def pinWriteClk (b : Bool) (s : State) : State := emit (.clkW b) { s with clkLvl := .known b }

/-- `PinWrite(DIO, b)` (20_memory.md rule R42). -/
def pinWriteDio (b : Bool) (s : State) : State := emit (.dioW b) { s with dioLatch := .known b }

/-- The peripheral's answer to the k-th coming DIO read, counted from 0: the listed one, and after the list the free
value of that read's number (00_scope.md rule R5, 20_memory.md rule R43). -/
def State.answer (s : State) (k : Nat) : Bool := s.dioAnswers.getD k (Config.dioAnswer (s.dioReads + k))

/-- `b <- PinRead(DIO)` (20_memory.md rule R43): the answer is the oracle's, and no register changes. -/
def pinRead (s : State) : Bool × State :=
  let b := s.answer 0
  (b, emit (.dioR b) { s with dioAnswers := s.dioAnswers.tail, dioReads := s.dioReads + 1 })

/-- `Delay(d)` (20_memory.md rule R44). -/
def delay (d : Nat) (s : State) : State := emit (.delay d) s

/-- `Delay(H_US)` (40_bus_engine.md rule R67). -/
def delayHalf (s : State) : State := delay s.cfg.hUs s

/-- `Delay(Q_US)` (40_bus_engine.md rule R67). -/
def delayQuarter (s : State) : State := delay s.cfg.qUs s

/-- `Diag(DIAG_NACK(v))` (20_memory.md rule R45). -/
def diagNack (v : Byte) (s : State) : State := if s.cfg.logEnabled then emit (.diagNack v) s else s

/-- A wire's level as the model can tell it (10_state.md rule R29). -/
inductive Wire where
  /-- No level may be assumed. -/
  | undetermined
  /-- The block drives this level. -/
  | driven (b : Bool)
  deriving DecidableEq, Repr

/-- What a driven line shows: its level, or nothing where the level is UNK (10_state.md rule R29). -/
def Level.onWire : Level → Wire
  | .unk => .undetermined
  | .known b => .driven b

/-- The level on the CLK wire (10_state.md rule R29). -/
def clkWire (s : State) : Wire :=
  match s.clkDir with
  | .out => s.clkLvl.onWire
  | .uncfg => .undetermined

/-- The level on the DIO wire (10_state.md rule R29). While DIO is an input it shows only through the oracle. -/
def dioWire (s : State) : Wire :=
  match s.dioDir with
  | .out => s.dioLatch.onWire
  | .uncfg => .undetermined
  | .inp => .undetermined

/-- `refuse <reason>` (60_exceptions.md rule R116): the mark is set, the first reason is kept, nothing else changes and
no event is emitted. -/
def refuse (r : RefuseReason) (s : State) : State :=
  { s with
    refused := true
    refuseReason := if s.refuseReason = none then some r else s.refuseReason }

/-- Run a command's body unless the command is refused: VARIANT_ABSENT where its variant is not `present`, else
NOT_CONFIGURED before SETUP (42_display_commands.md rule R91, in the order of 60_exceptions.md rule R111). -/
def whenRunnable (present : Bool) (body : State → State) (s : State) : State :=
  if present then
    if s.configured then body s else refuse .notConfigured s
  else refuse .variantAbsent s

/-- The next command word on the command port; none when the program has ended (10_state.md rule R16). -/
def fetch (s : State) : Option CmdWord := s.program[s.position]?

/-- The position advances by exactly 1 after each command (10_state.md rule R16). -/
def advance (s : State) : State := { s with position := s.position + 1 }

/-- The command list with `w` as its entry `n`; a list too short to have that entry is filled up with zero words. -/
def setWordAt (ws : List CmdWord) (n : Nat) (w : CmdWord) : List CmdWord :=
  ws.take n ++ List.replicate (n - ws.length) 0#16 ++ w :: ws.drop (n + 1)

/-- Place a command word where the command port reads its next one. -/
def placeCommand (w : CmdWord) (s : State) : State :=
  { s with seqSlot := none, program := setWordAt s.program s.position w }

/-- Place an internal sequencer word in its slot. -/
def placeUop (w : CmdWord) (s : State) : State := { s with seqSlot := some w }

/-- The internal sequencer word is taken out of its slot. -/
def clearSlot (s : State) : State := { s with seqSlot := none }

end Sys2Proof.Machine
end

