-- ==== Sys2Proof/Machine/BusEngine.lean ====
section
/-!
DEFINITION. The bus engine (40_bus_engine.md): the signaling layer (rules R69 to R72) and the byte transceiver (rules
R73 to R79), and the meanings of the six U_ names (30_encoding.md rule R58).
-/

namespace Sys2Proof.Machine

/-- `AssertStart()` (rule R69). -/
def assertStart (s : State) : State :=
  let s := delayHalf (pinWriteDio true s)
  let s := delayQuarter (pinWriteClk true s)
  delayQuarter (pinWriteDio false s)

/-- `AssertStop()` (rule R70). -/
def assertStop (s : State) : State :=
  let s := delayHalf (pinWriteDio false s)
  let s := delayQuarter (pinWriteClk true s)
  delayQuarter (pinWriteDio true s)

/-- `SendBit(b)` (rule R71). -/
def sendBit (b : Bool) (s : State) : State :=
  let s := delayQuarter (pinWriteClk false s)
  delayQuarter (pinWriteDio b s)

/-- `RaiseClock()` (rule R72). -/
def raiseClock (s : State) : State := delayHalf (pinWriteClk true s)

/-- The bits of a byte, least significant first (20_memory.md rule R37). -/
def bitsLsbFirst (v : Byte) : List Bool := (List.range 8).map v.getLsbD

/-- The eight data bits of a byte: SendBit and RaiseClock for each (rule R73). -/
def sendBits (v : Byte) (s : State) : State :=
  (bitsLsbFirst v).foldl (fun s b => raiseClock (sendBit b s)) s

/-- The bounded sampling loop of the acknowledgment phase: at most `n` reads, ended by the first 0 (rule R74). -/
def sampleAck : Nat → State → Bool × State
  | 0, s => (false, s)
  | n + 1, s =>
    let (b, s) := pinRead s
    if b then sampleAck n s else (true, s)

/-- On no acknowledgment, the data line is driven low (rule R74). -/
def driveLowOnNack (ack : Bool) (s : State) : State := if ack then s else pinWriteDio false s

/-- `AckPhase()` (rule R74). -/
def ackPhase (s : State) : Bool × State :=
  let s := delayQuarter (pinWriteClk false s)
  let s := delayQuarter (pinWriteDio true s)
  let s := delayQuarter (pinWriteClk true (pinCfgInDio s))
  let (ack, s) := sampleAck s.cfg.ackSamples s
  let s := driveLowOnNack ack (pinCfgOutDio s)
  (ack, pinWriteClk false (delayQuarter s))

/-- The diagnostic event of a byte that was not acknowledged (rule R77). -/
def reportNack (ack : Bool) (v : Byte) (s : State) : State := if ack then s else diagNack v s

/-- `TransmitByte(v)` (rule R73). -/
def transmitByte (v : Byte) (s : State) : Bool × State :=
  let (ack, s) := ackPhase (sendBits v s)
  (ack, reportNack ack v (countByte ack s))

/-- U_START: the start sequence (rule R69). -/
def execUStart (s : State) : Host.Outcome State Fault Refusal := .next (assertStart s)

/-- U_STOP: the stop sequence (rule R70). -/
def execUStop (s : State) : Host.Outcome State Fault Refusal := .next (assertStop s)

/-- U_SENDBIT: one data bit (rule R71). -/
def execUSendbit (b : Bool) (s : State) : Host.Outcome State Fault Refusal := .next (sendBit b s)

/-- U_RAISECLK: the high half of a bit cycle (rule R72). -/
def execURaiseclk (s : State) : Host.Outcome State Fault Refusal := .next (raiseClock s)

/-- U_TXBYTE: one byte (rule R73). The result is not retained (10_state.md rule R30). -/
def execUTxbyte (v : Byte) (s : State) : Host.Outcome State Fault Refusal := .next (transmitByte v s).2

/-- U_ACKPHASE: the ninth clock (rule R74). The result is not retained (10_state.md rule R30). -/
def execUAckphase (s : State) : Host.Outcome State Fault Refusal := .next (ackPhase s).2

end Sys2Proof.Machine
end

