-- ==== Sys2Proof/Machine/ChipCommands.lean ====
section
/-!
DEFINITION. The chip command encoder (41_chip_commands.md rules R81 to R90) and the meanings of the seven T_ names
(30_encoding.md rule R58).
-/

namespace Sys2Proof.Machine

/-- The bytes of a transaction, each sent whatever the acknowledgment of the one before (rules R81 and R82). -/
def sendBytes (bs : List Byte) (s : State) : State := bs.foldl (fun s b => (transmitByte b s).2) s

/-- `Txn(b_1, ..., b_m)`: one framed transaction (rule R81). -/
def txn (bs : List Byte) (s : State) : State := assertStop (sendBytes bs (assertStart s))

/-- `TxnFixMode()` (rule R83). -/
def txnFixMode (s : State) : State := txn [s.cfg.cmdAddrFixed] s

/-- `TxnLevelData(n)` (rule R85). -/
def txnLevelData (n : Bits3) (s : State) : State := txn [s.cfg.addrLevel, pattern n] s

/-- `LevelWrite(n)` (rule R84). -/
def levelWrite (n : Bits3) (s : State) : State := txnLevelData n (txnFixMode s)

/-- `TxnPower(on)`, which reads BRIGHT (rule R86). -/
def txnPower (on : Bool) (s : State) : State := txn [powerByte s.cfg on (code s.cfg s.bright)] s

/-- `TxnAutoMode()` (rule R88). -/
def txnAutoMode (s : State) : State := txn [s.cfg.cmdAddrAuto] s

/-- `TxnFrameData(on)`: the start address and FRAME_BYTES data bytes (rule R89). -/
def txnFrameData (on : Bool) (s : State) : State :=
  txn (s.cfg.addrFrame :: List.replicate Config.frameBytes (frameData s.cfg on)) s

/-- `FrameWrite(on)` (rule R87). -/
def frameWrite (on : Bool) (s : State) : State := txnFrameData on (txnAutoMode s)

/-- A frame operation exists only in the blink-capable variant (rule R87; notes/assumptions/10.md). -/
def whenBlink (op : State → State) (s : State) : Host.Outcome State Fault Refusal :=
  if s.cfg.blinkSupported then .next (op s) else .refused .frameOperationAbsent

/-- T_FIXMODE (rule R83). -/
def execTFixmode (s : State) : Host.Outcome State Fault Refusal := .next (txnFixMode s)

/-- T_LEVELDATA n (rule R85). -/
def execTLeveldata (n : Bits3) (s : State) : Host.Outcome State Fault Refusal := .next (txnLevelData n s)

/-- T_POWER on (rule R86). -/
def execTPower (on : Bool) (s : State) : Host.Outcome State Fault Refusal := .next (txnPower on s)

/-- T_AUTOMODE (rule R88). -/
def execTAutomode (s : State) : Host.Outcome State Fault Refusal := whenBlink txnAutoMode s

/-- T_FRAMEDATA on (rule R89). -/
def execTFramedata (on : Bool) (s : State) : Host.Outcome State Fault Refusal := whenBlink (txnFrameData on) s

/-- T_LEVELWRITE n (rule R84). -/
def execTLevelwrite (n : Bits3) (s : State) : Host.Outcome State Fault Refusal := .next (levelWrite n s)

/-- T_FRAMEWRITE on (rule R87). -/
def execTFramewrite (on : Bool) (s : State) : Host.Outcome State Fault Refusal := whenBlink (frameWrite on) s

end Sys2Proof.Machine
end

