-- ==== Sys2Proof/Machine/Display.lean ====
section
/-!
DEFINITION. The display state machine (42_display_commands.md): the bodies and the meanings of the ten host commands.
Each meaning is `Execute` of rule R91 from the point where the word is decoded.
-/

namespace Sys2Proof.Machine

/-- The display registers that SETUP initialises, with CONFIGURED (rules R92 and R131). -/
def initDisplay (s : State) : State :=
  { s with configured := true, bright := .typical, level := 0#3, dispOn := true, blinkOn := false }

/-- The body of SETUP (rule R92). -/
def setupBody (s : State) : State :=
  txnPower true (levelWrite 0#3 (initDisplay (pinCfgOutDio (pinCfgOutClk s))))

/-- SETUP (rule R92): refused ALREADY_CONFIGURED when CONFIGURED = 1 (rule R91). -/
def execSetup (s : State) : Host.Outcome State Fault Refusal :=
  .next (if s.configured then refuse .alreadyConfigured s else setupBody s)

/-- The hardened variant re-sends the level before the power byte (rule R93). -/
def resendLevel (s : State) : State := if s.cfg.brightnessResendsLevel then levelWrite s.level s else s

/-- The body of SET_BRIGHTNESS raw (rule R93). -/
def setBrightnessBody (raw : Byte) (s : State) : State :=
  let s := { s with bright := brightClass raw }
  if s.dispOn then txnPower true (resendLevel s) else s

/-- SET_BRIGHTNESS raw (rule R93). -/
def execSetBrightness (raw : Byte) (s : State) : Host.Outcome State Fault Refusal :=
  .next (whenRunnable true (setBrightnessBody raw) s)

/-- Store a level and, if the display is on, transmit it (rules R94 and R95: "then behaves as `setLevel`"). -/
def storeLevel (n : Bits3) (s : State) : State :=
  let s := { s with level := n }
  if s.dispOn then levelWrite s.level s else s

/-- The body of SET_LEVEL n (rule R94). -/
def setLevelBody (n : Byte) (s : State) : State := storeLevel (clampLevel s.cfg n.toNat) s

/-- SET_LEVEL n (rule R94). -/
def execSetLevel (n : Byte) (s : State) : Host.Outcome State Fault Refusal :=
  .next (whenRunnable true (setLevelBody n) s)

/-- The body of SET_LEVEL_PERCENT p (rule R95). -/
def setLevelPercentBody (p : Byte) (s : State) : State := storeLevel (percentLevel s.cfg p) s

/-- SET_LEVEL_PERCENT p (rule R95). -/
def execSetLevelPercent (p : Byte) (s : State) : Host.Outcome State Fault Refusal :=
  .next (whenRunnable true (setLevelPercentBody p) s)

/-- The body of TURN_ON: segment data first, then the power-on byte (rule R97). -/
def turnOnBody (s : State) : State :=
  let s := { s with dispOn := true }
  txnPower true (levelWrite s.level s)

/-- TURN_ON (rule R97). -/
def execTurnOn (s : State) : Host.Outcome State Fault Refusal := .next (whenRunnable true turnOnBody s)

/-- The body of TURN_OFF (rule R98). -/
def turnOffBody (s : State) : State := txnPower false { s with dispOn := false }

/-- TURN_OFF (rule R98). -/
def execTurnOff (s : State) : Host.Outcome State Fault Refusal := .next (whenRunnable true turnOffBody s)

/-- The body of the two blink commands (rules R99 and R100). -/
def setBlinkBody (on : Bool) (s : State) : State := frameWrite on { s with blinkOn := on }

/-- SET_BLINK_ON (rule R99). -/
def execSetBlinkOn (s : State) : Host.Outcome State Fault Refusal :=
  .next (whenRunnable s.cfg.blinkSupported (setBlinkBody true) s)

/-- SET_BLINK_OFF (rule R100). -/
def execSetBlinkOff (s : State) : Host.Outcome State Fault Refusal :=
  .next (whenRunnable s.cfg.blinkSupported (setBlinkBody false) s)

/-- The body of RESET_ERROR_COUNTERS (rule R101). -/
def resetErrorCountersBody (s : State) : State := { s with errCnt := 0#32, attCnt := 0#32 }

/-- RESET_ERROR_COUNTERS (rule R101). -/
def execResetErrorCounters (s : State) : Host.Outcome State Fault Refusal :=
  .next (whenRunnable s.cfg.hasCounters resetErrorCountersBody s)

/-- The body of READ_COUNTERS: the pair is returned to the host (rule R102, 30_encoding.md rule R64). -/
def readCountersBody (s : State) : State := { s with results := s.results ++ [(s.errCnt, s.attCnt)] }

/-- READ_COUNTERS (rule R102). -/
def execReadCounters (s : State) : Host.Outcome State Fault Refusal :=
  .next (whenRunnable s.cfg.hasCounters readCountersBody s)

end Sys2Proof.Machine
end

