-- ==== Sys2Proof/Machine/Dispatch.lean ====
section
/-!
DEFINITION. One arm for each constructor of Instr (spec/opcode_table.json).
-/

namespace Sys2Proof.Machine

/-- The meaning of a decoded instruction (42_display_commands.md rule R91, 30_encoding.md rule R58). -/
def exec (i : Instr) (s : State) : Host.Outcome State Fault Refusal :=
  match i with
  | .setup => Sys2Proof.Machine.execSetup s
  | .setBrightness raw => Sys2Proof.Machine.execSetBrightness raw s
  | .setLevel n => Sys2Proof.Machine.execSetLevel n s
  | .setLevelPercent p => Sys2Proof.Machine.execSetLevelPercent p s
  | .turnOn => Sys2Proof.Machine.execTurnOn s
  | .turnOff => Sys2Proof.Machine.execTurnOff s
  | .setBlinkOn => Sys2Proof.Machine.execSetBlinkOn s
  | .setBlinkOff => Sys2Proof.Machine.execSetBlinkOff s
  | .resetErrorCounters => Sys2Proof.Machine.execResetErrorCounters s
  | .readCounters => Sys2Proof.Machine.execReadCounters s
  | .uStart => Sys2Proof.Machine.execUStart s
  | .uStop => Sys2Proof.Machine.execUStop s
  | .uSendbit b => Sys2Proof.Machine.execUSendbit b s
  | .uRaiseclk => Sys2Proof.Machine.execURaiseclk s
  | .uTxbyte v => Sys2Proof.Machine.execUTxbyte v s
  | .uAckphase => Sys2Proof.Machine.execUAckphase s
  | .tFixmode => Sys2Proof.Machine.execTFixmode s
  | .tLeveldata n => Sys2Proof.Machine.execTLeveldata n s
  | .tPower on => Sys2Proof.Machine.execTPower on s
  | .tAutomode => Sys2Proof.Machine.execTAutomode s
  | .tFramedata on => Sys2Proof.Machine.execTFramedata on s
  | .tLevelwrite n => Sys2Proof.Machine.execTLevelwrite n s
  | .tFramewrite on => Sys2Proof.Machine.execTFramewrite on s

end Sys2Proof.Machine
end

