-- ==== Sys2Proof/Machine/Step.lean ====
section
/-!
DEFINITION. One step: the next command word of the command port is decoded and executed, or refused, and the position
advances (42_display_commands.md rule R91, 10_state.md rule R16). A word in the internal sequencer slot goes first
(30_encoding.md rule R58; notes/assumptions/7.md). With no command pending the block is idle (60_exceptions.md rule
R126; notes/assumptions/4.md).
-/

namespace Sys2Proof.Machine

/-- The position advances after a command that gives a next state (10_state.md rule R16). -/
def advanceNext : Host.Outcome State Fault Refusal → Host.Outcome State Fault Refusal
  | .next s => .next (advance s)
  | .fault r => .fault r
  | .refused r => .refused r

/-- Execute one command word (42_display_commands.md rule R91). -/
def stepCommand (w : CmdWord) (s : State) : Host.Outcome State Fault Refusal :=
  match decode s.cfg w with
  | .ok i => advanceNext (exec i s)
  | .error r => .next (advance (refuse r s))

/-- Run one internal sequencer word, already taken out of its slot (30_encoding.md rule R58). -/
def stepUop (w : CmdWord) (s : State) : Host.Outcome State Fault Refusal :=
  match decodeUop w with
  | some i => exec i s
  | none => .refused (.unknownSequencerWord w)

/-- One step of the machine. -/
def step (s : State) : Host.Outcome State Fault Refusal :=
  match s.seqSlot with
  | some w => stepUop w (clearSlot s)
  | none =>
    match fetch s with
    | some w => stepCommand w s
    | none => .next s

/-- The state `s` with the table word `w` placed where the next step takes its instruction: a UOP word in the sequencer
slot, every other word on the command port (notes/assumptions/4.md, notes/assumptions/7.md). -/
def State.withFetchWord (s : State) (_nbits w : Nat) : State :=
  if isUopWord (BitVec.ofNat 16 w) then placeUop (BitVec.ofNat 16 w) s
  else placeCommand (BitVec.ofNat 16 w) s

end Sys2Proof.Machine
end

