-- ==== Sys2Proof/Machine/Assembler.lean ====
section
/-!
DEFINITION. The assembler of host programs (30_encoding.md rules R60 to R62). A program is a list of lines, a line a list
of characters. What the rules leave open (blanks around a line's words) is in notes/assumptions/21.md.
-/

namespace Sys2Proof.Machine

/-- The assembly errors of 30_encoding.md rule R60. They are errors of the text, not refusals of the block. -/
inductive AsmError where
  /-- The first word of the line names no command. -/
  | unknownMnemonic
  /-- An operand is written where the command takes none, or more than one is written. -/
  | unexpectedOperand
  /-- The pseudo-instruction `SET_BLINK b` is written without its `b` (rule R61; notes/assumptions/21.md). -/
  | missingOperand
  /-- The operand is no number and no symbol the command may use. -/
  | badOperand
  /-- The operand does not lie in 0..255. -/
  | operandOutOfRange
  deriving DecidableEq, Repr

/-- The mnemonics with their opcodes (rule R49), and whether the command takes an operand (rules R52 and R54). -/
def asmTable : List (String × Byte × Bool) :=
  [("SETUP", 0x01#8, false), ("SET_BRIGHTNESS", 0x02#8, true), ("SET_LEVEL", 0x03#8, true),
   ("SET_LEVEL_PERCENT", 0x04#8, true), ("TURN_ON", 0x05#8, false), ("TURN_OFF", 0x06#8, false),
   ("SET_BLINK_ON", 0x07#8, false), ("SET_BLINK_OFF", 0x08#8, false),
   ("RESET_ERROR_COUNTERS", 0x09#8, false), ("READ_COUNTERS", 0x0A#8, false)]

/-- The symbols of rule R62, usable as the operand of SET_BRIGHTNESS. -/
def asmSymbols : List (String × Nat) := [("DARKEST", 0), ("TYPICAL", 2), ("BRIGHTEST", 3)]

/-- A digit's value in a base up to 16. -/
def digitValue (base : Nat) (ch : Char) : Option Nat :=
  let n := ch.toNat
  let v := if 48 ≤ n ∧ n ≤ 57 then n - 48
    else if 65 ≤ n ∧ n ≤ 70 then n - 55
    else if 97 ≤ n ∧ n ≤ 102 then n - 87
    else 16
  if v < base then some v else none

/-- The value of digits, most significant first, after a value read so far. -/
def digitsValue (base : Nat) : Nat → List Char → Option Nat
  | acc, [] => some acc
  | acc, ch :: cs => (digitValue base ch).bind fun v => digitsValue base (acc * base + v) cs

/-- A decimal number or a `0x` hexadecimal number (rule R60). -/
def asmNumber : List Char → Option Nat
  | '0' :: 'x' :: ch :: cs => digitsValue 16 0 (ch :: cs)
  | ch :: cs => digitsValue 10 0 (ch :: cs)
  | [] => none

/-- A symbol's value (rule R62). -/
def asmSymbol (cs : List Char) : Option Nat := (asmSymbols.find? fun p => p.1.toList == cs).map (·.2)

/-- An operand: a number, or where the command allows it a symbol, in 0..255 (rules R60 and R62). -/
def asmOperand (symbols : Bool) (cs : List Char) : Except AsmError Byte :=
  match (if symbols then asmSymbol cs else none) <|> asmNumber cs with
  | none => .error .badOperand
  | some v => if v ≤ 255 then .ok (BitVec.ofNat 8 v) else .error .operandOutOfRange

/-- A blank inside a line. -/
def isBlank (ch : Char) : Bool := ch == ' ' || ch == '\t'

/-- The words of a line, split at blanks. -/
def asmWords (cs : List Char) : List (List Char) :=
  (cs.foldr (fun ch acc =>
    if isBlank ch then [] :: acc
    else match acc with
      | [] => [[ch]]
      | w :: ws => (ch :: w) :: ws) [[]]).filter fun w => !w.isEmpty

/-- The word of a command: `word = (OP << 8) | operand`, operand 0 when absent (rule R60). -/
def asmWord (op operand : Byte) : CmdWord := op ++ operand

/-- A command with its operands as written: `MNEMONIC` or `MNEMONIC operand`, with operand 0 when absent (rule R60), or
the pseudo-instruction (rule R61). -/
def asmCommand (name : List Char) (args : List (List Char)) : Except AsmError CmdWord :=
  if name == "SET_BLINK".toList then
    match args with
    | [] => .error .missingOperand
    | [a] => (asmOperand false a).map fun b => if b = 0#8 then asmWord 0x08#8 0#8 else asmWord 0x07#8 0#8
    | _ :: _ :: _ => .error .unexpectedOperand
  else
    match asmTable.find? fun r => r.1.toList == name with
    | none => .error .unknownMnemonic
    | some (_, op, false) => if args.isEmpty then .ok (asmWord op 0#8) else .error .unexpectedOperand
    | some (mnemonic, op, true) =>
      match args with
      | [] => .ok (asmWord op 0#8)
      | [a] => (asmOperand (mnemonic == "SET_BRIGHTNESS") a).map (asmWord op)
      | _ :: _ :: _ => .error .unexpectedOperand

/-- One line: empty, a comment that starts with `;`, or one command (rule R60). -/
def assembleLine (line : List Char) : Except AsmError (Option CmdWord) :=
  match asmWords line with
  | [] => .ok none
  | (';' :: _) :: _ => .ok none
  | name :: args => (asmCommand name args).map some

/-- A host program: the words of its lines, in order (rule R60). -/
def assemble : List (List Char) → Except AsmError (List CmdWord)
  | [] => .ok []
  | line :: rest =>
    match assembleLine line, assemble rest with
    | .error e, _ => .error e
    | .ok _, .error e => .error e
    | .ok none, .ok ws => .ok ws
    | .ok (some w), .ok ws => .ok (w :: ws)

end Sys2Proof.Machine
end

