-- ==== Sys2Proof/Machine/Trace.lean ====
section
/-!
DEFINITION. The compact trace notation of 00_scope.md rule R10, written as functions of the configuration and of the
oracle's answers alone, and the state after a list of transactions in those terms. These are the words the claims are
stated in; no meaning uses them. An answer stream `ans` gives the answer to the k-th coming read as `ans k`.
-/

namespace Sys2Proof.Machine

/-- `Wh`: DELAY(H_US). -/
def waitHalf (c : Config) : Event := .delay c.hUs

/-- `Wq`: DELAY(Q_US). -/
def waitQuarter (c : Config) : Event := .delay c.qUs

/-- `S = D1 Wh C1 Wq D0 Wq` (40_bus_engine.md rule R69). -/
def traceStart (c : Config) : List Event :=
  [.dioW true, waitHalf c, .clkW true, waitQuarter c, .dioW false, waitQuarter c]

/-- `P = D0 Wh C1 Wq D1 Wq` (rule R70). -/
def traceStop (c : Config) : List Event :=
  [.dioW false, waitHalf c, .clkW true, waitQuarter c, .dioW true, waitQuarter c]

/-- `C0 Wq D<b> Wq C1 Wh`: one data bit (rules R71 and R72). -/
def traceBit (c : Config) (b : Bool) : List Event :=
  [.clkW false, waitQuarter c, .dioW b, waitQuarter c, .clkW true, waitHalf c]

/-- The eight data bits of a byte, bit 0 first (rule R73). -/
def traceBits (c : Config) (v : Byte) : List Event :=
  [0, 1, 2, 3, 4, 5, 6, 7].flatMap fun i => traceBit c (v.getLsbD i)

/-- The reads of one acknowledgment phase of at most `n` samples: up to and with the first 0 (rule R74). -/
def ackReads : Nat → (Nat → Bool) → List Bool
  | 0, _ => []
  | n + 1, ans => if ans 0 then true :: ackReads n (fun k => ans (k + 1)) else [false]

/-- The acknowledgment phase with the reads `rs`: `C0 Wq D1 Wq Di C1 Wq R.. Do [D0] Wq C0` (rule R74). -/
def traceAck (c : Config) (rs : List Bool) : List Event :=
  [.clkW false, waitQuarter c, .dioW true, waitQuarter c, .dioCfgIn, .clkW true, waitQuarter c]
    ++ rs.map .dioR ++ [.dioCfgOut] ++ (if ackOf rs then [] else [.dioW false])
    ++ [waitQuarter c, .clkW false]

/-- `N(v)` after a byte that was not acknowledged, when LOG_ENABLED (rule R77). -/
def traceDiag (c : Config) (v : Byte) (rs : List Bool) : List Event :=
  if ackOf rs || !c.logEnabled then [] else [.diagNack v]

/-- `B(v)` with the reads `rs`, and the diagnostic event after it (rule R73). -/
def traceByte (c : Config) (v : Byte) (rs : List Bool) : List Event :=
  traceBits c v ++ traceAck c rs ++ traceDiag c v rs

/-- The answers that are left after `n` reads. -/
def laterAnswers (n : Nat) (ans : Nat → Bool) : Nat → Bool := fun k => ans (n + k)

/-- The reads of `m` bytes in a row, one list a byte. -/
def readsOf (c : Config) : Nat → (Nat → Bool) → List (List Bool)
  | 0, _ => []
  | m + 1, ans =>
    let rs := ackReads c.ackSamples ans
    rs :: readsOf c m (laterAnswers rs.length ans)

/-- The number of reads of `m` bytes in a row. -/
def readCount (c : Config) (m : Nat) (ans : Nat → Bool) : Nat := (readsOf c m ans).flatten.length

/-- The number of NACKed bytes among `m` bytes in a row (rule R75). -/
def nackCount (c : Config) (m : Nat) (ans : Nat → Bool) : Nat := (readsOf c m ans).countP fun rs => !ackOf rs

/-- The bytes of one transaction on the wire. -/
def traceBytes (c : Config) (bs : List Byte) (ans : Nat → Bool) : List Event :=
  (List.zipWith (traceByte c) bs (readsOf c bs.length ans)).flatten

/-- One framed transaction: `S B(b_1) ... B(b_m) P` (41_chip_commands.md rule R81). -/
def traceTxn (c : Config) (bs : List Byte) (ans : Nat → Bool) : List Event :=
  traceStart c ++ traceBytes c bs ans ++ traceStop c

/-- Framed transactions in a row. -/
def traceTxns (c : Config) : List (List Byte) → (Nat → Bool) → List Event
  | [], _ => []
  | bs :: rest, ans => traceTxn c bs ans ++ traceTxns c rest (laterAnswers (readCount c bs.length ans) ans)

/-- The transactions of LevelWrite(n) (41_chip_commands.md rules R83 to R85). -/
def levelTxns (c : Config) (n : Bits3) : List (List Byte) := [[c.cmdAddrFixed], [c.addrLevel, pattern n]]

/-- The transaction of TxnPower(on) with BRIGHT = `b` (41_chip_commands.md rule R86). -/
def powerTxns (c : Config) (on : Bool) (b : BrightClass) : List (List Byte) := [[powerByte c on (code c b)]]

/-- The transactions of FrameWrite(on) (41_chip_commands.md rules R87 to R89). -/
def frameTxns (c : Config) (on : Bool) : List (List Byte) :=
  [[c.cmdAddrAuto], [c.addrFrame, frameData c on, frameData c on, frameData c on]]

/-- `s` with the events `evs` appended to its trace. -/
def State.record (s : State) (evs : List Event) : State := { s with events := evs.reverse ++ s.events }

/-- `s` with the events `evs` appended to its trace, and CLK_LVL, DIO_DIR and DIO_LATCH left at the given values. -/
def State.drive (s : State) (evs : List Event) (clk : Level) (dir : DioDir) (latch : Level) : State :=
  { s with events := evs.reverse ++ s.events, clkLvl := clk, dioDir := dir, dioLatch := latch }

/-- `s` after `n` answers of the oracle were used. -/
def State.afterReads (s : State) (n : Nat) : State :=
  { s with dioAnswers := s.dioAnswers.drop n, dioReads := s.dioReads + n }

/-- `s` with the counters advanced by `m` attempted bytes, `k` of them NACKed, where the counters exist
(40_bus_engine.md rule R76). -/
def State.counted (s : State) (m k : Nat) : State :=
  if s.cfg.hasCounters then
    { s with attCnt := s.attCnt + BitVec.ofNat 32 m, errCnt := s.errCnt + BitVec.ofNat 32 k }
  else s

/-- `s` after the transactions `ts` were sent, and nothing else: their trace is appended, the oracle's answers are used,
the counters have advanced, and the bus is left free (40_bus_engine.md rule R70: CLK_LVL = 1, DIO_LATCH = 1, DIO an
output). Every other field of `s` stands. Meant for a non-empty `ts`. -/
def State.sent (s : State) (ts : List (List Byte)) : State :=
  let m := ts.flatten.length
  ((s.counted m (nackCount s.cfg m s.answer)).afterReads (readCount s.cfg m s.answer)).drive
    (traceTxns s.cfg ts s.answer) (.known true) .out (.known true)

/-- DIO_LATCH after a byte whose reads were `rs` (40_bus_engine.md rule R79). -/
def latchAfterAck (c : Config) (rs : List Bool) : Level :=
  if ackOf rs then (if c.dioLatchKept then .known true else .unk) else .known false

/-- `s` after one transmitted byte `v`, in terms of the byte's reads (40_bus_engine.md rules R73 to R79). -/
def State.sentByte (s : State) (v : Byte) : State :=
  let rs := ackReads s.cfg.ackSamples s.answer
  ((s.counted 1 (if ackOf rs then 0 else 1)).afterReads rs.length).drive
    (traceByte s.cfg v rs) (.known false) .out (latchAfterAck s.cfg rs)

end Sys2Proof.Machine
end

