-- ==== Sys2Proof/Safety.lean ====
section
/-!
DEFINITION. What the claims call a safe run: the invariant of the machine between commands, a run of the host's program
(70_reset_and_hazards.md rule R145), the pin discipline (20_memory.md rules R42 and R43), the data-change contract
(40_bus_engine.md rule R80), the delay totals (70_reset_and_hazards.md rule R142), and a monitor of the bytes sent on the
wire.
-/

namespace Sys2Proof.Machine

/-- The invariant of the machine between two commands. It says nothing of a state in the middle of a command, and none
of a state whose sequencer slot is filled (30_encoding.md rule R58: no host can fill it). -/
structure Inv (s : State) : Prop where
  /-- The configuration is an admitted one (00_scope.md rule R6). -/
  cfgWf : s.cfg.wf
  /-- `0 <= LEVEL <= MAX_LEVEL` in every state (10_state.md rule R18). -/
  levelBounded : s.level.toNat ≤ s.cfg.maxLevel.toNat
  /-- BLINK_ON stays 0 where blink is not supported (10_state.md rule R22). -/
  blinkAbsent : s.cfg.blinkSupported = false → s.blinkOn = false
  /-- The counters stay 0 where they do not exist (10_state.md rule R25). -/
  countersAbsent : s.cfg.hasCounters = false → s.errCnt = 0#32 ∧ s.attCnt = 0#32
  /-- REFUSED is set exactly when a reason is recorded (60_exceptions.md rule R116). -/
  markHasReason : s.refused = true ↔ s.refuseReason ≠ none
  /-- No internal sequencer word is pending. -/
  slotEmpty : s.seqSlot = none
  /-- The position lies within the program (10_state.md rule R16). -/
  positionInProgram : s.position ≤ s.program.length
  /-- After SETUP, both lines are outputs and the bus is left free between commands (60_exceptions.md rule R126). -/
  busFree : s.configured = true →
    s.clkDir = .out ∧ s.dioDir = .out ∧ s.clkLvl = .known true ∧ s.dioLatch = .known true
  /-- Before SETUP, nothing has been configured, driven or sent, and the display registers and the counters have their
  reset values (70_reset_and_hazards.md rules R129, R130 and R137). -/
  untouched : s.configured = false →
    s.clkDir = .uncfg ∧ s.dioDir = .uncfg ∧ s.clkLvl = .unk ∧ s.dioLatch = .unk ∧ s.events = [] ∧
    s.level = 0#3 ∧ s.bright = .typical ∧ s.dispOn = true ∧ s.blinkOn = false ∧ s.errCnt = 0#32 ∧ s.attCnt = 0#32

/-- The host's program `ws` placed at the command port, to be run from its first word (70_reset_and_hazards.md rule
R145). -/
def State.load (s : State) (ws : List CmdWord) : State := { s with program := ws, position := 0, seqSlot := none }

/-- `n` steps in a row. -/
def runSteps : Nat → State → Host.Outcome State Fault Refusal
  | 0, s => .next s
  | n + 1, s =>
    match step s with
    | .next t => runSteps n t
    | .fault r => .fault r
    | .refused r => .refused r

/-- The registers of 10_state.md rule R17, in its order. -/
structure Registers where
  level : Bits3
  bright : BrightClass
  dispOn : Bool
  blinkOn : Bool
  configured : Bool
  errCnt : Count
  attCnt : Count
  clkDir : ClkDir
  clkLvl : Level
  dioDir : DioDir
  dioLatch : Level
  refused : Bool
  refuseReason : Option RefuseReason
  deriving DecidableEq, Repr

/-- The registers of a state. -/
def State.registers (s : State) : Registers where
  level := s.level
  bright := s.bright
  dispOn := s.dispOn
  blinkOn := s.blinkOn
  configured := s.configured
  errCnt := s.errCnt
  attCnt := s.attCnt
  clkDir := s.clkDir
  clkLvl := s.clkLvl
  dioDir := s.dioDir
  dioLatch := s.dioLatch
  refused := s.refused
  refuseReason := s.refuseReason

/-- The observation of a run: final registers, trace, READ_COUNTERS results (70_reset_and_hazards.md rule R145). -/
def State.observation (s : State) : Registers × List Event × List (Count × Count) :=
  (s.registers, s.trace, s.results)

/-- The DIO events: direction changes and writes. A read is no change of the line. -/
def Event.isDio : Event → Bool
  | .dioCfgOut | .dioCfgIn | .dioW _ => true
  | .clkCfgOut | .clkW _ | .dioR _ | .delay _ | .diagNack _ => false

/-- The DIO events that occur while CLK_LVL = 1, where CLK_LVL is `l` before the first event (40_bus_engine.md rule
R80). -/
def dioEventsAtHigh : Level → List Event → List Event
  | _, [] => []
  | l, e :: es =>
    match e with
    | .clkW b => dioEventsAtHigh (.known b) es
    | e => if e.isDio && l == .known true then e :: dioEventsAtHigh l es else dioEventsAtHigh l es

/-- Pin discipline: CLK is written only while CLK_DIR = OUT, DIO only while DIO_DIR = OUT, and DIO is read only while
DIO_DIR = IN (20_memory.md rules R42 and R43). The directions are those before the first event. -/
def pinUseOk : ClkDir → DioDir → List Event → Bool
  | _, _, [] => true
  | cd, dd, e :: es =>
    match e with
    | .clkCfgOut => pinUseOk .out dd es
    | .dioCfgOut => pinUseOk cd .out es
    | .dioCfgIn => pinUseOk cd .inp es
    | .clkW _ => cd == .out && pinUseOk cd dd es
    | .dioW _ => dd == .out && pinUseOk cd dd es
    | .dioR _ => dd == .inp && pinUseOk cd dd es
    | .delay _ => pinUseOk cd dd es
    | .diagNack _ => pinUseOk cd dd es

/-- The sum of the DELAY events of a trace (70_reset_and_hazards.md rule R142). -/
def delayTotal : List Event → Nat
  | [] => 0
  | .delay d :: es => d + delayTotal es
  | _ :: es => delayTotal es

/-- The number of DIO reads in a trace (70_reset_and_hazards.md rule R144). -/
def readTotal (es : List Event) : Nat := es.countP fun e => match e with
  | .dioR _ => true
  | _ => false

/-- An event that is not of the diagnostic channel (60_exceptions.md rule R124). -/
def Event.notDiag : Event → Bool
  | .diagNack _ => false
  | _ => true

/-- A trace without what an acknowledgment result may change in it (42_display_commands.md rule R103): the DIO_R events,
the DIAG_NACK events, and a write of 0 on DIO right after DIO became an output, which is the NACK-path `D0`
(40_bus_engine.md rule R74). `restored` says that DIO has just become an output. -/
def withoutAnswers (restored : Bool) : List Event → List Event
  | [] => []
  | e :: es =>
    match e with
    | .dioR _ => withoutAnswers restored es
    | .diagNack _ => withoutAnswers restored es
    | .dioCfgOut => .dioCfgOut :: withoutAnswers true es
    | .dioW b => if restored && !b then withoutAnswers false es else .dioW b :: withoutAnswers false es
    | .clkCfgOut => .clkCfgOut :: withoutAnswers false es
    | .dioCfgIn => .dioCfgIn :: withoutAnswers false es
    | .clkW b => .clkW b :: withoutAnswers false es
    | .delay d => .delay d :: withoutAnswers false es

/-- A monitor of what the controller sends: it follows the two lines and collects bits, bytes and transactions. -/
structure Monitor where
  /-- The last level written on CLK. -/
  clk : Level
  /-- The last level written on DIO. -/
  dio : Level
  /-- The bits of the byte that is being sent, bit 0 first. -/
  bits : List Bool
  /-- The bytes of the transaction that is being sent. -/
  bytes : List Byte
  /-- The transactions sent so far. -/
  txns : List (List Byte)
  deriving DecidableEq, Repr

/-- A number from its bits, least significant first. -/
def natOfBits : List Bool → Nat
  | [] => 0
  | b :: bs => b.toNat + 2 * natOfBits bs

/-- The monitor's reading of one event. A rising clock edge takes the data line's level as a bit; the switch of DIO to
input ends a byte (40_bus_engine.md rule R74); a low-to-high data edge while the clock is high is a stop condition and
ends a transaction (00_scope.md glossary), and bits of no whole byte before it are dropped. -/
def Monitor.see (m : Monitor) : Event → Monitor
  | .clkW b =>
    match m.clk, m.dio, b with
    | .known false, .known d, true => { m with clk := .known true, bits := m.bits ++ [d] }
    | _, _, _ => { m with clk := .known b }
  | .dioW b =>
    if b = true ∧ m.clk = .known true ∧ m.dio = .known false then
      { m with dio := .known true, bits := [], bytes := [], txns := m.txns ++ [m.bytes] }
    else { m with dio := .known b }
  | .dioCfgIn =>
    { m with clk := .unk, bits := [], bytes := m.bytes ++ [BitVec.ofNat 8 (natOfBits m.bits)] }
  | _ => m

/-- The monitor before the first event. -/
def Monitor.start : Monitor := { clk := .unk, dio := .unk, bits := [], bytes := [], txns := [] }

/-- The monitor after a trace. -/
def monitor (es : List Event) : Monitor := es.foldl Monitor.see Monitor.start

/-- The transactions that a trace sends, each as its bytes. -/
def sentTxns (es : List Event) : List (List Byte) := (monitor es).txns

/-- The trace ends between two transactions: nothing is half sent, and the lines are either not yet written or left as a
stop sequence leaves them (40_bus_engine.md rule R70). -/
def betweenTxns (es : List Event) : Prop :=
  (monitor es).bits = [] ∧ (monitor es).bytes = [] ∧
  ((monitor es).clk = .unk ∧ (monitor es).dio = .unk ∨
   (monitor es).clk = .known true ∧ (monitor es).dio = .known true)

/-- The level byte most recently sent: level-data transactions are the transactions of two bytes (30_encoding.md rule
R59, 41_chip_commands.md rules R83 to R89). -/
def lastLevelByte (ts : List (List Byte)) : Option Byte :=
  ((ts.filter fun t => t.length == 2).getLast?).bind fun t => t[1]?

/-- The power byte most recently sent: the transactions of one byte that is neither mode byte (30_encoding.md rule
R59). -/
def lastPowerByte (c : Config) (ts : List (List Byte)) : Option Byte :=
  ((ts.filter fun t => t.length == 1 && t != [c.cmdAddrFixed] && t != [c.cmdAddrAuto]).getLast?).bind fun t => t[0]?

/-- The mode bytes differ from every power byte, as in REF, so that a one-byte transaction tells which it is. -/
def powerBytesDistinct (c : Config) : Prop :=
  ∀ (on : Bool) (b : BrightClass), powerByte c on (code c b) ≠ c.cmdAddrFixed ∧ powerByte c on (code c b) ≠ c.cmdAddrAuto

/-- The transmitted-state correspondence of 10_state.md rule R23: once configured and while DISP_ON = 1, the bytes most
recently sent for the level data and the power byte encode LEVEL and code(BRIGHT). The trace ends between two
transactions. -/
def SentMatches (s : State) : Prop :=
  betweenTxns s.trace ∧
  (s.configured = true → s.dispOn = true →
    lastLevelByte (sentTxns s.trace) = some (pattern s.level) ∧
    lastPowerByte s.cfg (sentTxns s.trace) = some (powerByte s.cfg true (code s.cfg s.bright)))

end Sys2Proof.Machine
end

