-- ==== Sys2Proof/Certificates/Slice0/Obligations.lean ====
section
/-!
DEFINITION. The statements for the provers. Where a statement quantifies over every state, it quantifies over every
configuration too, since State holds it. `State.sent`, `State.sentByte`, `State.drive` and the trace functions are those
of Machine/Trace.lean; the invariant, the monitor and the totals are those of Safety.lean.
-/

open Sys2Proof Sys2Proof.Machine

/-! ## Reset and the invariant -/

/-- 70_reset_and_hazards.md rule R129: the registers right after reset, in every configuration, and the wire levels,
which are undetermined. That the block waits for its first command is an idle step here, with no command placed: both are
the model's choice (notes/assumptions/4.md, notes/assumptions/20.md). -/
def Obligations.ResetRegisterValues : Prop :=
  ∀ c : Config, (State.resetWith c).registers =
    { level := 0#3, bright := .typical, dispOn := true, blinkOn := false, configured := false,
      errCnt := 0#32, attCnt := 0#32, clkDir := .uncfg, clkLvl := .unk, dioDir := .uncfg, dioLatch := .unk,
      refused := false, refuseReason := none } ∧
    clkWire (State.resetWith c) = .undetermined ∧ dioWire (State.resetWith c) = .undetermined ∧
    step (State.resetWith c) = .next (State.resetWith c) ∧
    State.reset = State.resetWith Config.ref

/-- The invariant and the transmitted-state correspondence hold right after reset, whatever the open cycle time is.
The empty program, the empty slot and the empty trace of that state are the model's choice (notes/assumptions/20.md). -/
def Obligations.ResetMeetsInvariant : Prop :=
  Inv State.reset ∧ powerBytesDistinct State.reset.cfg ∧ SentMatches State.reset

/-- Every step keeps the invariant: the level within its bound (10_state.md rule R18), blink off and counters 0 where
the variant lacks them (rules R22, R25), the refusal mark consistent (60_exceptions.md rule R116), the bus free between
commands (rule R126), nothing driven before SETUP (70_reset_and_hazards.md rule R137). -/
def Obligations.StepKeepsInvariant : Prop :=
  ∀ s t : State, Inv s → step s = .next t → Inv t

/-- 10_state.md rule R23, which the spec marks as derived: after SETUP, while DISP_ON = 1, the bytes most recently sent
for the level data and the power byte encode LEVEL and code(BRIGHT), acknowledged or not. Every step keeps it, in every
configuration whose mode bytes are no power bytes (so that the monitor can tell them apart). The
monitor is the model's reading of what is sent (notes/assumptions/26.md). -/
def Obligations.StepKeepsSentMatchesLogicalState : Prop :=
  ∀ s t : State, Inv s → powerBytesDistinct s.cfg → SentMatches s → step s = .next t → SentMatches t

/-! ## The step -/

/-- A step runs the decoded command: when the command word at the position decodes to `i`, the step is `exec i`, and the
position is one further (42_display_commands.md rule R91, 10_state.md rule R16). -/
def Obligations.StepRunsDecodedCommand : Prop :=
  ∀ (s t : State) (w : CmdWord) (i : Instr), s.seqSlot = none → s.program[s.position]? = some w →
    decode s.cfg w = .ok i → exec i s = .next t →
    step s = .next { t with position := s.position + 1 }

/-- A step runs the internal name whose word stands in the sequencer slot, with the slot emptied and the position left.
The slot is the model's choice (notes/assumptions/7.md); 30_encoding.md rule R58 gives the words. That a word which
that rule does not list stops by name is the model's choice too (notes/assumptions/12.md). -/
def Obligations.StepRunsSequencerWord : Prop :=
  ∀ (s : State) (w : CmdWord), s.seqSlot = some w →
    (∀ i, decodeUop w = some i → step s = exec i { s with seqSlot := none }) ∧
    (decodeUop w = none → step s = .refused (.unknownSequencerWord w))

/-- With no command pending the block is idle (60_exceptions.md rule R126). That a step is possible then at all is the
model's choice (notes/assumptions/4.md). -/
def Obligations.StepIdleWithoutCommand : Prop :=
  ∀ s : State, s.seqSlot = none → s.program.length ≤ s.position → step s = .next s

/-- 60_exceptions.md rule R110: no condition stops the block. Whatever words the host issues, in whatever state, a step
gives a next state, and it leaves the block able to take the next command. -/
def Obligations.NoCommandStopsTheBlock : Prop :=
  ∀ s : State, s.seqSlot = none → ∃ t, step s = .next t ∧ t.seqSlot = none

/-- 10_state.md rule R16: the position advances by exactly 1 after each command, executed or refused; no command
changes it in any other way; the program ends when the position equals its length. -/
def Obligations.PositionCountsCommands : Prop :=
  (∀ s t : State, s.seqSlot = none → s.position < s.program.length → step s = .next t →
    t.position = s.position + 1 ∧ t.program = s.program) ∧
  (∀ s : State, s.seqSlot = none → s.position ≤ s.program.length →
    ∃ t, runSteps (s.program.length - s.position) s = .next t ∧ t.position = t.program.length ∧
      t.program = s.program)

/-- 10_state.md rule R32: no step writes a configuration parameter. -/
def Obligations.ConfigurationNeverWritten : Prop :=
  ∀ s t : State, step s = .next t → t.cfg = s.cfg

/-- 20_memory.md rule R46 and 00_scope.md rule R9: no event is reordered or dropped afterwards. A step only appends to
the trace and to the READ_COUNTERS results, and only READ_COUNTERS appends a result (30_encoding.md rule R64). -/
def Obligations.EventsAndResultsOnlyAppended : Prop :=
  (∀ s t : State, step s = .next t → ∃ (seg : List Event) (rs : List (Count × Count)),
    t.trace = s.trace ++ seg ∧ t.results = s.results ++ rs) ∧
  (∀ (i : Instr) (s t : State), exec i s = .next t → i ≠ .readCounters → t.results = s.results)

/-- 70_reset_and_hazards.md rule R145: a run of any finite list of command words ends, with every word executed or
refused, and is observed as the registers, the trace and the READ_COUNTERS results. -/
def Obligations.RunOfCommandWordsEnds : Prop :=
  ∀ (s : State) (ws : List CmdWord), ∃ (t : State) (seg : List Event) (rs : List (Count × Count)),
    runSteps ws.length (s.load ws) = .next t ∧ t.position = ws.length ∧ t.program = ws ∧
    t.observation = (t.registers, s.trace ++ seg, s.results ++ rs)

/-! ## Refusals -/

/-- 60_exceptions.md rule R116: what a refusal does, for every word that the command port refuses, with the reasons in
the order of rule R111. The mark is set, the first reason is kept, no other register changes, no event is emitted, and
the run goes on with the next command. No step clears the mark or changes a recorded reason. -/
def Obligations.RefusalChangesOnlyTheMark : Prop :=
  (∀ (s : State) (w : CmdWord) (r : RefuseReason), s.seqSlot = none → s.program[s.position]? = some w →
    (decode s.cfg w = .error r ∨
      (∃ i, decode s.cfg w = .ok i ∧ i ≠ .setup ∧ s.configured = false ∧ r = .notConfigured) ∨
      (decode s.cfg w = .ok .setup ∧ s.configured = true ∧ r = .alreadyConfigured)) →
    step s = .next { s with
      refused := true
      refuseReason := if s.refuseReason = none then some r else s.refuseReason
      position := s.position + 1 }) ∧
  (∀ s t : State, step s = .next t →
    (s.refused = true → t.refused = true) ∧ (∀ r, s.refuseReason = some r → t.refuseReason = some r))

/-! ## Decoding and encoding -/

/-- 30_encoding.md rules R54, R55, R56 and R63: which words are refused, with which reason, checked in that order; every
other word decodes to the one command whose encoding it is. OP is `w / 256`, IMM8 is `w % 256`. -/
def Obligations.DecoderClassifiesEveryWord : Prop :=
  ∀ (c : Config) (w : CmdWord),
    let op := w.toNat / 256
    let imm := w.toNat % 256
    let illegal := op = 0 ∨ 0x0B ≤ op
    let absent := ((op = 7 ∨ op = 8) ∧ c.blinkSupported = false) ∨ ((op = 9 ∨ op = 10) ∧ c.hasCounters = false)
    let reserved := op ∈ [1, 5, 6, 7, 8, 9, 10] ∧ imm ≠ 0
    (illegal → decode c w = .error .illegalOpcode) ∧
    (¬illegal → absent → decode c w = .error .variantAbsent) ∧
    (¬illegal → ¬absent → reserved → decode c w = .error .reservedOperand) ∧
    (¬illegal → ¬absent → ¬reserved →
      ∃ i : Instr, decode c w = .ok i ∧ (opcode i).toNat = op ∧ (operandField i).toNat = imm ∧
        i.hostIssuable = true ∧ i.present c = true)

/-- Decode and encode agree, both ways, on the command port and on the internal names: no bit of an encoding is dropped,
and each word has one meaning. -/
def Obligations.DecodeEncodeRoundTrip : Prop :=
  (∀ (c : Config) (i : Instr), i.hostIssuable = true → i.present c = true → decode c (encode i) = .ok i) ∧
  (∀ (c : Config) (w : CmdWord) (i : Instr), decode c w = .ok i →
    encode i = w ∧ i.hostIssuable = true ∧ i.present c = true) ∧
  (∀ i : Instr, i.hostIssuable = false → decodeUop (encode i) = some i) ∧
  (∀ (w : CmdWord) (i : Instr), decodeUop w = some i → encode i = w ∧ i.hostIssuable = false)

/-- 30_encoding.md rules R55 and R58: on the command port every internal sequencer name is an illegal opcode, in every
configuration. -/
def Obligations.InternalNamesIllegalOnCommandPort : Prop :=
  ∀ (c : Config) (i : Instr), i.hostIssuable = false → decode c (encode i) = .error .illegalOpcode

/-- Words written out from the spec's encodings decode to what they stand for: every row of the tables of
30_encoding.md rules R49 and R58, with every operand, OP (or UOP) as the high byte and the operand as the low one (rule
R48), in every configuration that has the row's variant. -/
def Obligations.SpecWordsDecode : Prop :=
  (∀ (c : Config) (x : Byte),
    decode c 0x0100#16 = .ok .setup ∧ decode c (0x02#8 ++ x) = .ok (.setBrightness x) ∧
    decode c (0x03#8 ++ x) = .ok (.setLevel x) ∧ decode c (0x04#8 ++ x) = .ok (.setLevelPercent x) ∧
    decode c 0x0500#16 = .ok .turnOn ∧ decode c 0x0600#16 = .ok .turnOff) ∧
  (∀ c : Config, c.blinkSupported = true →
    decode c 0x0700#16 = .ok .setBlinkOn ∧ decode c 0x0800#16 = .ok .setBlinkOff) ∧
  (∀ c : Config, c.hasCounters = true →
    decode c 0x0900#16 = .ok .resetErrorCounters ∧ decode c 0x0A00#16 = .ok .readCounters) ∧
  (decodeUop 0xF000#16 = some .uStart ∧ decodeUop 0xF100#16 = some .uStop ∧
    decodeUop 0xF200#16 = some (.uSendbit false) ∧ decodeUop 0xF201#16 = some (.uSendbit true) ∧
    decodeUop 0xF300#16 = some .uRaiseclk ∧ (∀ v : Byte, decodeUop (0xF4#8 ++ v) = some (.uTxbyte v)) ∧
    decodeUop 0xF500#16 = some .uAckphase) ∧
  (decodeUop 0xF600#16 = some .tFixmode ∧
    (∀ n : Bits3, decodeUop (0xF7#8 ++ (0#5 ++ n)) = some (.tLeveldata n)) ∧
    decodeUop 0xF800#16 = some (.tPower false) ∧ decodeUop 0xF801#16 = some (.tPower true) ∧
    decodeUop 0xF900#16 = some .tAutomode ∧
    decodeUop 0xFA00#16 = some (.tFramedata false) ∧ decodeUop 0xFA01#16 = some (.tFramedata true) ∧
    (∀ n : Bits3, decodeUop (0xFB#8 ++ (0#5 ++ n)) = some (.tLevelwrite n)) ∧
    decodeUop 0xFC00#16 = some (.tFramewrite false) ∧ decodeUop 0xFC01#16 = some (.tFramewrite true))

/-- The examples of 30_encoding.md rule R65, which the spec marks as derived: each line assembles to its word. And the
form `MNEMONIC` of rule R60 for the three commands that take an operand: the operand is 0 when absent. -/
def Obligations.AssemblerExamples : Prop :=
  assemble ["SETUP".toList, "SET_BRIGHTNESS 255".toList, "SET_BRIGHTNESS TYPICAL".toList, "SET_LEVEL 12".toList,
    "SET_LEVEL_PERCENT 50".toList, "SET_LEVEL_PERCENT 150".toList, "TURN_ON".toList, "TURN_OFF".toList,
    "SET_BLINK_ON".toList, "SET_BLINK 0".toList, "RESET_ERROR_COUNTERS".toList, "READ_COUNTERS".toList] =
  .ok [0x0100#16, 0x02FF#16, 0x0202#16, 0x030C#16, 0x0432#16, 0x0496#16, 0x0500#16, 0x0600#16, 0x0700#16, 0x0800#16,
    0x0900#16, 0x0A00#16] ∧
  assemble ["SET_BRIGHTNESS".toList, "SET_LEVEL".toList, "SET_LEVEL_PERCENT".toList] =
  .ok [0x0200#16, 0x0300#16, 0x0400#16]

/-- What the assembler can write is a command word of an operand-less or an 8-bit form: every word it makes decodes,
in a configuration with both variants (30_encoding.md rules R60 and R63), so no assembled line is refused by the
decoder. -/
def Obligations.AssembledWordsDecode : Prop :=
  ∀ (c : Config) (line : List Char) (w : CmdWord), c.blinkSupported = true → c.hasCounters = true →
    assembleLine line = .ok (some w) → ∃ i, decode c w = .ok i

/-! ## Operands -/

/-- 30_encoding.md rule R53: the brightness class of every raw operand. -/
def Obligations.BrightnessClassTable : Prop :=
  ∀ raw : Byte, (raw.toNat ≤ 1 → brightClass raw = .darkest) ∧ (raw.toNat = 2 → brightClass raw = .typical) ∧
    (3 ≤ raw.toNat → brightClass raw = .brightest)

/-- 42_display_commands.md rule R105, which the spec marks as derived: re-applying the class map to the hardware code
yields the same class, for every class, exactly when the three conditions on the codes hold. -/
def Obligations.BrightnessIdempotentExactlyWhen : Prop :=
  ∀ c : Config, (∀ k : BrightClass, brightClass ((code c k).setWidth 8) = k) ↔
    (c.codeDarkest.toNat ≤ 1 ∧ c.codeTypical = 2#3 ∧ 3 ≤ c.codeBrightest.toNat)

/-- 42_display_commands.md rule R96: the percentage map, and its three laws, which the spec marks as derived. -/
def Obligations.LevelFromPercentLaws : Prop :=
  ∀ c : Config, levelFromPercent c 0 = 0 ∧ levelFromPercent c 100 = c.maxLevel.toNat ∧
    (∀ p q : Nat, p ≤ q → levelFromPercent c p ≤ levelFromPercent c q) ∧
    (∀ q : Nat, q ≤ 100 → levelFromPercent c q ≤ c.maxLevel.toNat) ∧
    (∀ p : Byte, (percentLevel c p).toNat = (min p.toNat 100 * c.maxLevel.toNat + 50) / 100)

/-- 30_encoding.md rule R50: the pattern of level `n` has exactly its low `n` bits set; bit 7 is always 0. -/
def Obligations.PatternSetsExactlyTheLowBits : Prop :=
  ∀ n : Bits3, (pattern n).toNat = 2 ^ n.toNat - 1 ∧ (∀ i, (pattern n).getLsbD i = decide (i < n.toNat)) ∧
    (pattern n).getLsbD 7 = false

/-- 30_encoding.md rule R51: the power byte combines the on or off base with the code; in REF the on bytes are
0x88..0x8F and the off bytes 0x80..0x87. The bases of REF are the spec's general knowledge (notes/assumptions/18.md). -/
def Obligations.PowerByteValues : Prop :=
  (∀ (c : Config) (k : Bits3), powerByte c true k = c.dispOnBase ||| k.setWidth 8 ∧
    powerByte c false k = c.dispOffBase ||| k.setWidth 8) ∧
  (∀ (t : Nat) (k : Bits3), (powerByte (Config.refAt t) true k).toNat = 0x88 + k.toNat ∧
    (powerByte (Config.refAt t) false k).toNat = 0x80 + k.toNat)

/-! ## Pins, counters and the oracle -/

/-- 20_memory.md rule R43: a DIO read answers with the oracle's next bit, emits its event, changes no register, and the
next read draws the oracle's next answer. Any bits can be the answers. -/
def Obligations.DioReadDrawsTheOracle : Prop :=
  (∀ s : State, (pinRead s).1 = s.answer 0 ∧ (pinRead s).2.registers = s.registers ∧
    (pinRead s).2.trace = s.trace ++ [.dioR (s.answer 0)] ∧
    ∀ k, (pinRead s).2.answer k = s.answer (k + 1)) ∧
  (∀ (s : State) (bs : List Bool) (k : Nat) (h : k < bs.length), State.answer { s with dioAnswers := bs } k = bs[k])

/-! ## The bus engine -/

/-- 40_bus_engine.md rule R69: the start sequence, in full: its six events, the levels it leaves, and nothing else
changed. -/
def Obligations.StartSequence : Prop :=
  ∀ s : State, exec .uStart s = .next (s.drive
    [.dioW true, .delay (s.cfg.tUs / 2), .clkW true, .delay (s.cfg.tUs / 4), .dioW false, .delay (s.cfg.tUs / 4)]
    (.known true) s.dioDir (.known false))

/-- 40_bus_engine.md rule R70: the stop sequence, in full. -/
def Obligations.StopSequence : Prop :=
  ∀ s : State, exec .uStop s = .next (s.drive
    [.dioW false, .delay (s.cfg.tUs / 2), .clkW true, .delay (s.cfg.tUs / 4), .dioW true, .delay (s.cfg.tUs / 4)]
    (.known true) s.dioDir (.known true))

/-- 40_bus_engine.md rules R71 and R72: a data bit is put on DIO in the clock's low phase; then the clock is raised. -/
def Obligations.SendBitAndRaiseClock : Prop :=
  ∀ (s : State) (b : Bool),
    exec (.uSendbit b) s = .next (s.drive
      [.clkW false, .delay (s.cfg.tUs / 4), .dioW b, .delay (s.cfg.tUs / 4)] (.known false) s.dioDir (.known b)) ∧
    exec .uRaiseclk s = .next (s.drive [.clkW true, .delay (s.cfg.tUs / 2)] (.known true) s.dioDir s.dioLatch)

/-- 40_bus_engine.md rule R74: the acknowledgment phase, in full, by the reads it makes. `rs` are those reads: the
oracle's answers up to and with the first 0, at most ACK_SAMPLES of them. On no 0, DIO is driven low before the clock
falls. -/
def Obligations.AcknowledgmentPhase : Prop :=
  ∀ s : State, ∃ rs : List Bool,
    rs.length ≤ s.cfg.ackSamples ∧
    (∀ (k : Nat) (h : k < rs.length), rs[k] = s.answer k) ∧
    (∀ k : Nat, k + 1 < rs.length → s.answer k = true) ∧
    (false ∈ rs ∨ rs.length = s.cfg.ackSamples) ∧
    exec .uAckphase s = .next ((s.afterReads rs.length).drive
      ([.clkW false, .delay (s.cfg.tUs / 4), .dioW true, .delay (s.cfg.tUs / 4), .dioCfgIn, .clkW true,
        .delay (s.cfg.tUs / 4)] ++ rs.map .dioR ++ [.dioCfgOut] ++ (if false ∈ rs then [] else [.dioW false]) ++
        [.delay (s.cfg.tUs / 4), .clkW false])
      (.known false) .out
      (if false ∈ rs then (if s.cfg.dioLatchKept then .known true else .unk) else .known false))

/-- 40_bus_engine.md rule R78, which the spec marks as derived: the acknowledgment phase always terminates within its
bound. With every answer 1 it makes exactly ACK_SAMPLES reads; with the first 0 at the k-th read, exactly k. -/
def Obligations.AcknowledgmentReadsBounded : Prop :=
  ∀ s : State, 1 ≤ s.cfg.ackSamples → ∃ (t : State) (seg : List Event),
    exec .uAckphase s = .next t ∧ t.trace = s.trace ++ seg ∧ t.dioReads = s.dioReads + readTotal seg ∧
    1 ≤ readTotal seg ∧ readTotal seg ≤ s.cfg.ackSamples ∧
    ((∀ j, j < s.cfg.ackSamples → s.answer j = true) → readTotal seg = s.cfg.ackSamples) ∧
    (∀ k, k < s.cfg.ackSamples → (∀ j, j < k → s.answer j = true) → s.answer k = false → readTotal seg = k + 1)

/-- 40_bus_engine.md rule R73: one byte on the wire, in full: its eight bit cycles, bit 0 first, the acknowledgment
phase, the counters, the diagnostic event. -/
def Obligations.TransmitByteInFull : Prop :=
  ∀ (s : State) (v : Byte), exec (.uTxbyte v) s = .next (s.sentByte v) ∧
    (s.sentByte v).trace = s.trace ++
      traceBit s.cfg (v.getLsbD 0) ++ traceBit s.cfg (v.getLsbD 1) ++ traceBit s.cfg (v.getLsbD 2) ++
      traceBit s.cfg (v.getLsbD 3) ++ traceBit s.cfg (v.getLsbD 4) ++ traceBit s.cfg (v.getLsbD 5) ++
      traceBit s.cfg (v.getLsbD 6) ++ traceBit s.cfg (v.getLsbD 7) ++
      traceAck s.cfg (ackReads s.cfg.ackSamples s.answer) ++
      traceDiag s.cfg v (ackReads s.cfg.ackSamples s.answer)

/-- 40_bus_engine.md rules R75 and R76: a byte is acknowledged exactly when some of its ACK_SAMPLES possible reads is 0;
where the counters exist, every byte adds 1 to ATT_CNT and a NACKed one adds 1 to ERR_CNT; where they do not, neither
changes. -/
def Obligations.ByteCountsAttemptAndNack : Prop :=
  ∀ (s : State) (v : Byte), ∃ t, exec (.uTxbyte v) s = .next t ∧
    ((transmitByte v s).1 = true ↔ ∃ k, k < s.cfg.ackSamples ∧ s.answer k = false) ∧
    (s.cfg.hasCounters = true → t.attCnt = s.attCnt + 1#32 ∧
      t.errCnt = if (∃ k, k < s.cfg.ackSamples ∧ s.answer k = false) then s.errCnt else s.errCnt + 1#32) ∧
    (s.cfg.hasCounters = false → t.attCnt = s.attCnt ∧ t.errCnt = s.errCnt)

/-- 40_bus_engine.md rules R78 and R79, which the spec marks as derived: what a byte leaves on the lines, and how many
events it has. -/
def Obligations.BytePostconditions : Prop :=
  ∀ (s : State) (v : Byte), ∃ (t : State) (seg : List Event),
    exec (.uTxbyte v) s = .next t ∧ t.trace = s.trace ++ seg ∧ t.dioDir = .out ∧ t.clkLvl = .known false ∧
    ((∀ k, k < s.cfg.ackSamples → s.answer k = true) → t.dioLatch = .known false) ∧
    ((∃ k, k < s.cfg.ackSamples ∧ s.answer k = false) →
      t.dioLatch = if s.cfg.dioLatchKept then .known true else .unk) ∧
    seg.length ≤ 48 + 11 + s.cfg.ackSamples + 1 ∧
    (1 ≤ s.cfg.ackSamples → s.answer 0 = false → seg.length = 59)

/-- 00_scope.md rule R14: the protocol layers write no display register. The frame of the thirteen internal names: each
leaves the display registers, CONFIGURED, CLK_DIR, the refusal mark, the configuration, the command port and the results
as they were. -/
def Obligations.ProtocolLayersKeepDisplayState : Prop :=
  ∀ (i : Instr) (s t : State), i.hostIssuable = false → exec i s = .next t →
    t.level = s.level ∧ t.bright = s.bright ∧ t.dispOn = s.dispOn ∧ t.blinkOn = s.blinkOn ∧
    t.configured = s.configured ∧ t.clkDir = s.clkDir ∧ t.refused = s.refused ∧ t.refuseReason = s.refuseReason ∧
    t.cfg = s.cfg ∧ t.program = s.program ∧ t.position = s.position ∧ t.seqSlot = s.seqSlot ∧ t.results = s.results

/-! ## The chip commands -/

/-- 41_chip_commands.md rules R83 to R86: the transactions of the fixed-mode, level and power operations, the level in
0..MAX_LEVEL, whatever the acknowledgments are: their bytes in order, the counters, the bus left free, and nothing else
changed. -/
def Obligations.LevelAndPowerTransactions : Prop :=
  ∀ (s : State) (n : Bits3) (on : Bool),
    exec .tFixmode s = .next (s.sent [[s.cfg.cmdAddrFixed]]) ∧
    (n.toNat ≤ s.cfg.maxLevel.toNat →
      exec (.tLeveldata n) s = .next (s.sent [[s.cfg.addrLevel, pattern n]]) ∧
      exec (.tLevelwrite n) s = .next (s.sent [[s.cfg.cmdAddrFixed], [s.cfg.addrLevel, pattern n]])) ∧
    exec (.tPower on) s = .next (s.sent [[powerByte s.cfg on (code s.cfg s.bright)]])

/-- The level operations by their internal names with a level above MAX_LEVEL send its pattern too. 30_encoding.md rules
R50 and R58 give the pattern and the argument for every level in 0..7; that the operation runs there is the model's
choice (notes/assumptions/11.md). -/
def Obligations.LevelOperationsRunBeyondMaxLevel : Prop :=
  ∀ (s : State) (n : Bits3), s.cfg.maxLevel.toNat < n.toNat →
    exec (.tLeveldata n) s = .next (s.sent [[s.cfg.addrLevel, pattern n]]) ∧
    exec (.tLevelwrite n) s = .next (s.sent [[s.cfg.cmdAddrFixed], [s.cfg.addrLevel, pattern n]])

/-- 41_chip_commands.md rules R87 to R89: the transactions of the frame operations in the blink-capable variant, with
three data bytes, each the segment pattern or 0. -/
def Obligations.FrameTransactions : Prop :=
  ∀ (s : State) (on : Bool), s.cfg.blinkSupported = true →
    let d := if on then s.cfg.frameSeg else 0x00#8
    exec .tAutomode s = .next (s.sent [[s.cfg.cmdAddrAuto]]) ∧
    exec (.tFramedata on) s = .next (s.sent [[s.cfg.addrFrame, d, d, d]]) ∧
    exec (.tFramewrite on) s = .next (s.sent [[s.cfg.cmdAddrAuto], [s.cfg.addrFrame, d, d, d]])

/-- In a variant without blink the frame operations stop by name: the frame write "exists only in the blink-capable
variant" (41_chip_commands.md rule R87). The stop is the model's reading (notes/assumptions/10.md). -/
def Obligations.FrameOperationsAbsentWithoutBlink : Prop :=
  ∀ (s : State) (on : Bool), s.cfg.blinkSupported = false →
    exec .tAutomode s = .refused .frameOperationAbsent ∧
    exec (.tFramedata on) s = .refused .frameOperationAbsent ∧
    exec (.tFramewrite on) s = .refused .frameOperationAbsent

/-- A trace of transactions sends exactly those transactions, whatever the oracle answers: the monitor, which follows
the two lines and takes the data level at each rising clock edge, reads the bytes back (20_memory.md rule R37,
41_chip_commands.md rule R82: no NACK ends a transaction early). And so for the machine's own framed transaction `txn`
(rule R81). The monitor is the model's reading of what is sent (notes/assumptions/26.md). -/
def Obligations.MonitorReadsBackTransactions : Prop :=
  (∀ (c : Config) (ts : List (List Byte)) (ans : Nat → Bool) (es : List Event), betweenTxns es → (∀ t ∈ ts, t ≠ []) →
    sentTxns (es ++ traceTxns c ts ans) = sentTxns es ++ ts ∧ betweenTxns (es ++ traceTxns c ts ans)) ∧
  (∀ (s : State) (bs : List Byte), bs ≠ [] → betweenTxns s.trace →
    sentTxns (txn bs s).trace = sentTxns s.trace ++ [bs] ∧ betweenTxns (txn bs s).trace)

/-! ## The host commands -/

/-- 42_display_commands.md rule R92, in the order of 70_reset_and_hazards.md rule R131: before SETUP, SETUP configures
CLK and DIO, initialises the display registers, sends the level write of level 0 and the power-on byte of TYPICAL. The
counters are not cleared. A second SETUP is refused. -/
def Obligations.SetupInitialises : Prop :=
  ∀ s : State,
    (s.configured = false → exec .setup s = .next (State.sent
      (State.record
        { s with
          clkDir := .out, configured := true, bright := .typical, level := 0#3, dispOn := true, blinkOn := false }
        [.clkCfgOut, .dioCfgOut])
      [[s.cfg.cmdAddrFixed], [s.cfg.addrLevel, 0x00#8], [powerByte s.cfg true s.cfg.codeTypical]])) ∧
    (s.configured = true → exec .setup s = .next (refuse .alreadyConfigured s))

/-- 42_display_commands.md rule R93: SET_BRIGHTNESS stores the class of its operand; with the display on it sends the
power-on byte of that class, in the hardened variant after a level write; with the display off it sends nothing. Before
SETUP it is refused. -/
def Obligations.SetBrightnessStoresAndSends : Prop :=
  ∀ (s : State) (raw : Byte),
    let k := brightClass raw
    let p := [powerByte s.cfg true (code s.cfg k)]
    (s.configured = true → s.dispOn = false → exec (.setBrightness raw) s = .next { s with bright := k }) ∧
    (s.configured = true → s.dispOn = true → s.cfg.brightnessResendsLevel = false →
      exec (.setBrightness raw) s = .next (State.sent { s with bright := k } [p])) ∧
    (s.configured = true → s.dispOn = true → s.cfg.brightnessResendsLevel = true →
      exec (.setBrightness raw) s = .next (State.sent { s with bright := k }
        [[s.cfg.cmdAddrFixed], [s.cfg.addrLevel, pattern s.level], p])) ∧
    (s.configured = false → exec (.setBrightness raw) s = .next (refuse .notConfigured s))

/-- 42_display_commands.md rule R94: SET_LEVEL stores `min(n, MAX_LEVEL)`, never refusing an operand; with the display
on it sends the level write, with the display off nothing. Before SETUP it is refused. -/
def Obligations.SetLevelStoresAndSends : Prop :=
  ∀ (s : State) (n : Byte), ∃ l : Bits3, l.toNat = min n.toNat s.cfg.maxLevel.toNat ∧
    (s.configured = true → s.dispOn = false → exec (.setLevel n) s = .next { s with level := l }) ∧
    (s.configured = true → s.dispOn = true → exec (.setLevel n) s = .next (State.sent { s with level := l }
      [[s.cfg.cmdAddrFixed], [s.cfg.addrLevel, pattern l]])) ∧
    (s.configured = false → exec (.setLevel n) s = .next (refuse .notConfigured s))

/-- 42_display_commands.md rule R95, with the map of rule R96: SET_LEVEL_PERCENT clamps to 100, rounds to the nearest
level, and then behaves as SET_LEVEL. Before SETUP it is refused. -/
def Obligations.SetLevelPercentStoresAndSends : Prop :=
  ∀ (s : State) (p : Byte),
    ∃ l : Bits3, l.toNat = (min p.toNat 100 * s.cfg.maxLevel.toNat + 50) / 100 ∧
    (s.configured = true → s.dispOn = false → exec (.setLevelPercent p) s = .next { s with level := l }) ∧
    (s.configured = true → s.dispOn = true → exec (.setLevelPercent p) s = .next (State.sent { s with level := l }
      [[s.cfg.cmdAddrFixed], [s.cfg.addrLevel, pattern l]])) ∧
    (s.configured = false → exec (.setLevelPercent p) s = .next (refuse .notConfigured s))

/-- 42_display_commands.md rules R97 and R98: TURN_ON sends the segment data first and then the power-on byte; TURN_OFF
sends the power-off byte. Both transmit whatever DISP_ON was, and neither changes LEVEL, BRIGHT or BLINK_ON. Before
SETUP they are refused. -/
def Obligations.TurnOnAndTurnOff : Prop :=
  ∀ s : State,
    (s.configured = true → exec .turnOn s = .next (State.sent { s with dispOn := true }
      [[s.cfg.cmdAddrFixed], [s.cfg.addrLevel, pattern s.level], [powerByte s.cfg true (code s.cfg s.bright)]])) ∧
    (s.configured = true → exec .turnOff s = .next (State.sent { s with dispOn := false }
      [[powerByte s.cfg false (code s.cfg s.bright)]])) ∧
    (s.configured = false → exec .turnOn s = .next (refuse .notConfigured s) ∧
      exec .turnOff s = .next (refuse .notConfigured s))

/-- 42_display_commands.md rules R99 and R100: the blink commands set BLINK_ON and send the frame, whatever DISP_ON is
and whatever BLINK_ON was. They are refused in a variant without blink, and before SETUP. -/
def Obligations.BlinkCommandsSendTheFrame : Prop :=
  ∀ s : State,
    (s.configured = true → s.cfg.blinkSupported = true →
      exec .setBlinkOn s = .next (State.sent { s with blinkOn := true }
        [[s.cfg.cmdAddrAuto], [s.cfg.addrFrame, s.cfg.frameSeg, s.cfg.frameSeg, s.cfg.frameSeg]]) ∧
      exec .setBlinkOff s = .next (State.sent { s with blinkOn := false }
        [[s.cfg.cmdAddrAuto], [s.cfg.addrFrame, 0x00#8, 0x00#8, 0x00#8]])) ∧
    (s.cfg.blinkSupported = false →
      exec .setBlinkOn s = .next (refuse .variantAbsent s) ∧ exec .setBlinkOff s = .next (refuse .variantAbsent s)) ∧
    (s.cfg.blinkSupported = true → s.configured = false →
      exec .setBlinkOn s = .next (refuse .notConfigured s) ∧ exec .setBlinkOff s = .next (refuse .notConfigured s))

/-- 42_display_commands.md rules R101 and R102: the counters are cleared together with no event; the accessor returns
the pair with errors first and changes no register. They are refused where the counters do not exist, and before
SETUP. -/
def Obligations.CounterCommands : Prop :=
  ∀ s : State,
    (s.configured = true → s.cfg.hasCounters = true →
      exec .resetErrorCounters s = .next { s with errCnt := 0#32, attCnt := 0#32 } ∧
      exec .readCounters s = .next { s with results := s.results ++ [(s.errCnt, s.attCnt)] }) ∧
    (s.cfg.hasCounters = false →
      exec .resetErrorCounters s = .next (refuse .variantAbsent s) ∧
      exec .readCounters s = .next (refuse .variantAbsent s)) ∧
    (s.cfg.hasCounters = true → s.configured = false →
      exec .resetErrorCounters s = .next (refuse .notConfigured s) ∧
      exec .readCounters s = .next (refuse .notConfigured s))

/-- 42_display_commands.md rule R104, which the spec marks as derived: the clamping laws. -/
def Obligations.ClampingLaws : Prop :=
  ∀ s t : State, s.configured = true →
    (∀ n, exec (.setLevel n) s = .next t → t.level.toNat ≤ s.cfg.maxLevel.toNat) ∧
    (∀ p, exec (.setLevelPercent p) s = .next t → t.level.toNat ≤ s.cfg.maxLevel.toNat) ∧
    (exec (.setLevel (BitVec.ofNat 8 (s.cfg.maxLevel.toNat + 5))) s = .next t → t.level = s.cfg.maxLevel) ∧
    (∀ p : Byte, 100 ≤ p.toNat → exec (.setLevelPercent p) s = exec (.setLevelPercent 100#8) s)

/-- 42_display_commands.md rule R106, which the spec marks as derived: the level set while the display is off is the one
that TURN_ON transmits. -/
def Obligations.RetentionAcrossOffAndOn : Prop :=
  ∀ (s : State) (k : Byte), s.configured = true → ∃ (t u v : State) (l : Bits3),
    exec .turnOff s = .next t ∧ exec (.setLevel k) t = .next u ∧ exec .turnOn u = .next v ∧
    l.toNat = min k.toNat s.cfg.maxLevel.toNat ∧ v.level = l ∧ v.bright = s.bright ∧ v.dispOn = true ∧
    t.trace = s.trace ++ traceTxns s.cfg [[powerByte s.cfg false (code s.cfg s.bright)]] s.answer ∧
    u.trace = t.trace ∧
    v.trace = u.trace ++ traceTxns s.cfg
      [[s.cfg.cmdAddrFixed], [s.cfg.addrLevel, pattern l], [powerByte s.cfg true (code s.cfg s.bright)]] u.answer

/-! ## Whole-machine rules -/

/-- 10_state.md rule R24: only SETUP writes CONFIGURED, so nothing but a SETUP step makes the block configured, and
nothing ever makes it unconfigured. -/
def Obligations.OnlySetupWritesConfigured : Prop :=
  (∀ (i : Instr) (s t : State), i ≠ .setup → exec i s = .next t → t.configured = s.configured) ∧
  (∀ s t : State, exec .setup s = .next t → t.configured = true) ∧
  (∀ s t : State, step s = .next t → s.configured = true → t.configured = true)

/-- 10_state.md rule R33, which the spec marks as derived: each host command writes only the registers of its row. A
command that does not transmit leaves pins, counters and trace alone. The refusal mark changes only where the command is
refused, and then nothing else does (60_exceptions.md rule R116). -/
def Obligations.HostCommandsWriteOnlyTheirRegisters : Prop :=
  ∀ (i : Instr) (s t : State), i.hostIssuable = true → exec i s = .next t →
    ((∀ n, i ≠ .setLevel n) → (∀ p, i ≠ .setLevelPercent p) → i ≠ .setup → t.level = s.level) ∧
    ((∀ r, i ≠ .setBrightness r) → i ≠ .setup → t.bright = s.bright) ∧
    (i ≠ .turnOn → i ≠ .turnOff → i ≠ .setup → t.dispOn = s.dispOn) ∧
    (i ≠ .setBlinkOn → i ≠ .setBlinkOff → i ≠ .setup → t.blinkOn = s.blinkOn) ∧
    (i ≠ .setup → t.configured = s.configured) ∧
    (i ≠ .setup → t.clkDir = s.clkDir) ∧
    ((∃ r, t = refuse r s) ∨ (t.refused = s.refused ∧ t.refuseReason = s.refuseReason)) ∧
    (i ≠ .readCounters → t.results = s.results) ∧
    t.cfg = s.cfg ∧ t.program = s.program ∧ t.position = s.position ∧ t.seqSlot = s.seqSlot ∧
    ((i = .resetErrorCounters ∨ i = .readCounters ∨
        (s.dispOn = false ∧ ((∃ n, i = .setLevel n) ∨ (∃ p, i = .setLevelPercent p) ∨ ∃ r, i = .setBrightness r))) →
      t.trace = s.trace ∧ t.clkLvl = s.clkLvl ∧ t.dioDir = s.dioDir ∧ t.dioLatch = s.dioLatch ∧
      t.dioReads = s.dioReads ∧
      (i ≠ .resetErrorCounters → t.errCnt = s.errCnt ∧ t.attCnt = s.attCnt))

/-- 42_display_commands.md rule R103: acknowledgments never change which bytes or transactions a host command sends, nor
any register but ERR_CNT, and they change the trace only in its DIO_R events, its NACK-path `D0` and its DIAG_NACK
events. Two states that differ only in the oracle: the command does the same in both. The transactions are read back by
the monitor of notes/assumptions/26.md, the model's choice, from a trace that ends between two of them. -/
def Obligations.AcknowledgmentsChangeNothingSent : Prop :=
  ∀ (i : Instr) (s t : State) (answers : List Bool) (reads : Nat), i.hostIssuable = true → exec i s = .next t →
    ∃ (t' : State) (seg seg' : List Event),
      exec i { s with dioAnswers := answers, dioReads := reads } = .next t' ∧
      t.trace = s.trace ++ seg ∧ t'.trace = s.trace ++ seg' ∧
      withoutAnswers false seg' = withoutAnswers false seg ∧
      (betweenTxns s.trace → sentTxns t'.trace = sentTxns t.trace) ∧
      { t'.registers with errCnt := t.errCnt } = t.registers ∧ t'.results = t.results

/-- 10_state.md rule R26: an increment is modulo 2^32, and no rule's control flow reads the counters, except
READ_COUNTERS, which returns them. Two states that differ only in the counters: every instruction does the same in both,
and the counters move by the same amounts. -/
def Obligations.CountersNeverSteer : Prop :=
  (∀ n : Count, (bump n).toNat = (n.toNat + 1) % 2 ^ 32) ∧
  ∀ (i : Instr) (s t : State) (e a : Count), exec i s = .next t →
    ∃ t', exec i { s with errCnt := e, attCnt := a } = .next t' ∧
      { t' with errCnt := t.errCnt, attCnt := t.attCnt, results := t.results } = t ∧
      (i ≠ .readCounters → t'.results = t.results) ∧
      (i ≠ .resetErrorCounters → t'.errCnt - e = t.errCnt - s.errCnt ∧ t'.attCnt - a = t.attCnt - s.attCnt)

/-- 60_exceptions.md rule R124: the diagnostic channel is an output only. With the log switched the other way, every
instruction leaves the same state, and the trace it adds differs in DIAG_NACK events alone. -/
def Obligations.DiagnosticChannelChangesNothingElse : Prop :=
  ∀ (i : Instr) (s t : State) (b : Bool), exec i s = .next t →
    ∃ (t' : State) (seg seg' : List Event),
      exec i { s with cfg := { s.cfg with logEnabled := b } } = .next t' ∧
      t.trace = s.trace ++ seg ∧ t'.trace = s.trace ++ seg' ∧
      seg'.filter Event.notDiag = seg.filter Event.notDiag ∧
      (b = false → seg'.all Event.notDiag) ∧
      { t' with cfg := t.cfg, events := t.events } = t

/-- 40_bus_engine.md rule R80, which the spec marks as derived, and 70_reset_and_hazards.md rules R132 and R135: a data
bit is written with the clock low; and the DIO events of a transaction that occur while the clock is high are the start
sequence's two writes, for each byte the return to output and on a NACK the write of 0, and the stop condition. In the
first transaction after SETUP the clock's level is UNK, so the start sequence's first write is not one of them. -/
def Obligations.DataChangesOnlyWhileClockLow : Prop :=
  (∀ (s : State) (b : Bool), ∃ (t : State) (seg : List Event), exec (.uSendbit b) s = .next t ∧
    t.trace = s.trace ++ seg ∧ dioEventsAtHigh s.clkLvl seg = []) ∧
  (∀ (s : State) (bs : List Byte), bs ≠ [] → ∃ (seg : List Event),
    let acks := (readsOf s.cfg bs.length s.answer).flatMap
      fun rs => if ackOf rs then [.dioCfgOut] else [.dioCfgOut, .dioW false]
    (txn bs s).trace = s.trace ++ seg ∧ (txn bs s).clkLvl = .known true ∧
    (s.clkLvl = .known true → dioEventsAtHigh s.clkLvl seg = [.dioW true, .dioW false] ++ acks ++ [.dioW true]) ∧
    (s.clkLvl = .unk → dioEventsAtHigh s.clkLvl seg = [.dioW false] ++ acks ++ [.dioW true]))

/-- 20_memory.md rules R42 and R43, in what the spec marks as derived: in every host command, CLK is written only as an
output, DIO only as an output, and DIO is read only as an input; and the two lines are outputs when the command ends. -/
def Obligations.PinsUsedInTheirDirections : Prop :=
  ∀ (i : Instr) (s t : State), Inv s → i.hostIssuable = true → exec i s = .next t →
    ∃ seg, t.trace = s.trace ++ seg ∧ pinUseOk s.clkDir s.dioDir seg = true ∧
      (seg ≠ [] → t.clkDir = .out ∧ t.dioDir = .out)

/-- The delay totals of the operations (70_reset_and_hazards.md rule R142, which the spec marks as derived), for every
configuration and every oracle. -/
def Obligations.OperationDelayTotals : Prop :=
  ∀ (i : Instr) (s t : State), exec i s = .next t → i.hostIssuable = false → ∃ seg, t.trace = s.trace ++ seg ∧
    delayTotal seg =
      let h := s.cfg.hUs
      let q := s.cfg.qUs
      match i with
      | .uStart | .uStop => h + 2 * q
      | .uSendbit _ => 2 * q
      | .uRaiseclk => h
      | .uAckphase => 4 * q
      | .uTxbyte _ => 8 * h + 20 * q
      | .tFixmode | .tAutomode | .tPower _ => 10 * h + 24 * q
      | .tLeveldata _ => 18 * h + 44 * q
      | .tFramedata _ => 34 * h + 84 * q
      | .tLevelwrite _ => 28 * h + 68 * q
      | .tFramewrite _ => 44 * h + 108 * q
      | _ => 0

/-- The delay totals and the read bounds of the host commands that are not refused (70_reset_and_hazards.md rules R143
and R144, which the spec marks as derived). -/
def Obligations.CommandDelayTotals : Prop :=
  ∀ (i : Instr) (s t : State), i.hostIssuable = true → i.present s.cfg = true → exec i s = .next t →
    (i = .setup ↔ s.configured = false) → ∃ (seg : List Event) (bytes : Nat), t.trace = s.trace ++ seg ∧
    readTotal seg ≤ s.cfg.ackSamples * bytes ∧ t.dioReads = s.dioReads + readTotal seg ∧
    (delayTotal seg, bytes) =
      let h := s.cfg.hUs
      let q := s.cfg.qUs
      match i with
      | .setup | .turnOn => (38 * h + 92 * q, 4)
      | .setBrightness _ =>
        if s.dispOn then (if s.cfg.brightnessResendsLevel then (38 * h + 92 * q, 4) else (10 * h + 24 * q, 1))
        else (0, 0)
      | .setLevel _ | .setLevelPercent _ => if s.dispOn then (28 * h + 68 * q, 3) else (0, 0)
      | .turnOff => (10 * h + 24 * q, 1)
      | .setBlinkOn | .setBlinkOff => (44 * h + 108 * q, 5)
      | _ => (0, 0)
end

