-- ==== Sys2Proof/Laws/State.lean ====
section
/-!
SUPPORT. One lemma for each field of State and each named update of it, true by unfolding, so that no later proof
unfolds a record update.
-/

namespace Sys2Proof.Machine

variable (s : State)

/-! What `emit` does to each field. -/

@[simp] theorem emit_level (e : Event) : (emit e s).level = s.level := rfl
@[simp] theorem emit_bright (e : Event) : (emit e s).bright = s.bright := rfl
@[simp] theorem emit_dispOn (e : Event) : (emit e s).dispOn = s.dispOn := rfl
@[simp] theorem emit_blinkOn (e : Event) : (emit e s).blinkOn = s.blinkOn := rfl
@[simp] theorem emit_configured (e : Event) : (emit e s).configured = s.configured := rfl
@[simp] theorem emit_errCnt (e : Event) : (emit e s).errCnt = s.errCnt := rfl
@[simp] theorem emit_attCnt (e : Event) : (emit e s).attCnt = s.attCnt := rfl
@[simp] theorem emit_clkDir (e : Event) : (emit e s).clkDir = s.clkDir := rfl
@[simp] theorem emit_clkLvl (e : Event) : (emit e s).clkLvl = s.clkLvl := rfl
@[simp] theorem emit_dioDir (e : Event) : (emit e s).dioDir = s.dioDir := rfl
@[simp] theorem emit_dioLatch (e : Event) : (emit e s).dioLatch = s.dioLatch := rfl
@[simp] theorem emit_refused (e : Event) : (emit e s).refused = s.refused := rfl
@[simp] theorem emit_refuseReason (e : Event) : (emit e s).refuseReason = s.refuseReason := rfl
@[simp] theorem emit_cfg (e : Event) : (emit e s).cfg = s.cfg := rfl
@[simp] theorem emit_program (e : Event) : (emit e s).program = s.program := rfl
@[simp] theorem emit_position (e : Event) : (emit e s).position = s.position := rfl
@[simp] theorem emit_seqSlot (e : Event) : (emit e s).seqSlot = s.seqSlot := rfl
@[simp] theorem emit_events (e : Event) : (emit e s).events = e :: s.events := rfl
@[simp] theorem emit_results (e : Event) : (emit e s).results = s.results := rfl
@[simp] theorem emit_dioAnswers (e : Event) : (emit e s).dioAnswers = s.dioAnswers := rfl
@[simp] theorem emit_dioReads (e : Event) : (emit e s).dioReads = s.dioReads := rfl

/-! What `pinCfgOutClk` does to each field. -/

@[simp] theorem pinCfgOutClk_level : (pinCfgOutClk s).level = s.level := rfl
@[simp] theorem pinCfgOutClk_bright : (pinCfgOutClk s).bright = s.bright := rfl
@[simp] theorem pinCfgOutClk_dispOn : (pinCfgOutClk s).dispOn = s.dispOn := rfl
@[simp] theorem pinCfgOutClk_blinkOn : (pinCfgOutClk s).blinkOn = s.blinkOn := rfl
@[simp] theorem pinCfgOutClk_configured : (pinCfgOutClk s).configured = s.configured := rfl
@[simp] theorem pinCfgOutClk_errCnt : (pinCfgOutClk s).errCnt = s.errCnt := rfl
@[simp] theorem pinCfgOutClk_attCnt : (pinCfgOutClk s).attCnt = s.attCnt := rfl
@[simp] theorem pinCfgOutClk_clkDir : (pinCfgOutClk s).clkDir = .out := rfl
@[simp] theorem pinCfgOutClk_clkLvl : (pinCfgOutClk s).clkLvl = s.clkLvl := rfl
@[simp] theorem pinCfgOutClk_dioDir : (pinCfgOutClk s).dioDir = s.dioDir := rfl
@[simp] theorem pinCfgOutClk_dioLatch : (pinCfgOutClk s).dioLatch = s.dioLatch := rfl
@[simp] theorem pinCfgOutClk_refused : (pinCfgOutClk s).refused = s.refused := rfl
@[simp] theorem pinCfgOutClk_refuseReason : (pinCfgOutClk s).refuseReason = s.refuseReason := rfl
@[simp] theorem pinCfgOutClk_cfg : (pinCfgOutClk s).cfg = s.cfg := rfl
@[simp] theorem pinCfgOutClk_program : (pinCfgOutClk s).program = s.program := rfl
@[simp] theorem pinCfgOutClk_position : (pinCfgOutClk s).position = s.position := rfl
@[simp] theorem pinCfgOutClk_seqSlot : (pinCfgOutClk s).seqSlot = s.seqSlot := rfl
@[simp] theorem pinCfgOutClk_events : (pinCfgOutClk s).events = .clkCfgOut :: s.events := rfl
@[simp] theorem pinCfgOutClk_results : (pinCfgOutClk s).results = s.results := rfl
@[simp] theorem pinCfgOutClk_dioAnswers : (pinCfgOutClk s).dioAnswers = s.dioAnswers := rfl
@[simp] theorem pinCfgOutClk_dioReads : (pinCfgOutClk s).dioReads = s.dioReads := rfl

/-! What `pinCfgOutDio` does to each field. -/

@[simp] theorem pinCfgOutDio_level : (pinCfgOutDio s).level = s.level := rfl
@[simp] theorem pinCfgOutDio_bright : (pinCfgOutDio s).bright = s.bright := rfl
@[simp] theorem pinCfgOutDio_dispOn : (pinCfgOutDio s).dispOn = s.dispOn := rfl
@[simp] theorem pinCfgOutDio_blinkOn : (pinCfgOutDio s).blinkOn = s.blinkOn := rfl
@[simp] theorem pinCfgOutDio_configured : (pinCfgOutDio s).configured = s.configured := rfl
@[simp] theorem pinCfgOutDio_errCnt : (pinCfgOutDio s).errCnt = s.errCnt := rfl
@[simp] theorem pinCfgOutDio_attCnt : (pinCfgOutDio s).attCnt = s.attCnt := rfl
@[simp] theorem pinCfgOutDio_clkDir : (pinCfgOutDio s).clkDir = s.clkDir := rfl
@[simp] theorem pinCfgOutDio_clkLvl : (pinCfgOutDio s).clkLvl = s.clkLvl := rfl
@[simp] theorem pinCfgOutDio_dioDir : (pinCfgOutDio s).dioDir = .out := rfl
@[simp] theorem pinCfgOutDio_dioLatch : (pinCfgOutDio s).dioLatch = if s.cfg.dioLatchKept then s.dioLatch else .unk := rfl
@[simp] theorem pinCfgOutDio_refused : (pinCfgOutDio s).refused = s.refused := rfl
@[simp] theorem pinCfgOutDio_refuseReason : (pinCfgOutDio s).refuseReason = s.refuseReason := rfl
@[simp] theorem pinCfgOutDio_cfg : (pinCfgOutDio s).cfg = s.cfg := rfl
@[simp] theorem pinCfgOutDio_program : (pinCfgOutDio s).program = s.program := rfl
@[simp] theorem pinCfgOutDio_position : (pinCfgOutDio s).position = s.position := rfl
@[simp] theorem pinCfgOutDio_seqSlot : (pinCfgOutDio s).seqSlot = s.seqSlot := rfl
@[simp] theorem pinCfgOutDio_events : (pinCfgOutDio s).events = .dioCfgOut :: s.events := rfl
@[simp] theorem pinCfgOutDio_results : (pinCfgOutDio s).results = s.results := rfl
@[simp] theorem pinCfgOutDio_dioAnswers : (pinCfgOutDio s).dioAnswers = s.dioAnswers := rfl
@[simp] theorem pinCfgOutDio_dioReads : (pinCfgOutDio s).dioReads = s.dioReads := rfl

/-! What `pinCfgInDio` does to each field. -/

@[simp] theorem pinCfgInDio_level : (pinCfgInDio s).level = s.level := rfl
@[simp] theorem pinCfgInDio_bright : (pinCfgInDio s).bright = s.bright := rfl
@[simp] theorem pinCfgInDio_dispOn : (pinCfgInDio s).dispOn = s.dispOn := rfl
@[simp] theorem pinCfgInDio_blinkOn : (pinCfgInDio s).blinkOn = s.blinkOn := rfl
@[simp] theorem pinCfgInDio_configured : (pinCfgInDio s).configured = s.configured := rfl
@[simp] theorem pinCfgInDio_errCnt : (pinCfgInDio s).errCnt = s.errCnt := rfl
@[simp] theorem pinCfgInDio_attCnt : (pinCfgInDio s).attCnt = s.attCnt := rfl
@[simp] theorem pinCfgInDio_clkDir : (pinCfgInDio s).clkDir = s.clkDir := rfl
@[simp] theorem pinCfgInDio_clkLvl : (pinCfgInDio s).clkLvl = s.clkLvl := rfl
@[simp] theorem pinCfgInDio_dioDir : (pinCfgInDio s).dioDir = .inp := rfl
@[simp] theorem pinCfgInDio_dioLatch : (pinCfgInDio s).dioLatch = s.dioLatch := rfl
@[simp] theorem pinCfgInDio_refused : (pinCfgInDio s).refused = s.refused := rfl
@[simp] theorem pinCfgInDio_refuseReason : (pinCfgInDio s).refuseReason = s.refuseReason := rfl
@[simp] theorem pinCfgInDio_cfg : (pinCfgInDio s).cfg = s.cfg := rfl
@[simp] theorem pinCfgInDio_program : (pinCfgInDio s).program = s.program := rfl
@[simp] theorem pinCfgInDio_position : (pinCfgInDio s).position = s.position := rfl
@[simp] theorem pinCfgInDio_seqSlot : (pinCfgInDio s).seqSlot = s.seqSlot := rfl
@[simp] theorem pinCfgInDio_events : (pinCfgInDio s).events = .dioCfgIn :: s.events := rfl
@[simp] theorem pinCfgInDio_results : (pinCfgInDio s).results = s.results := rfl
@[simp] theorem pinCfgInDio_dioAnswers : (pinCfgInDio s).dioAnswers = s.dioAnswers := rfl
@[simp] theorem pinCfgInDio_dioReads : (pinCfgInDio s).dioReads = s.dioReads := rfl

/-! What `pinWriteClk` does to each field. -/

@[simp] theorem pinWriteClk_level (b : Bool) : (pinWriteClk b s).level = s.level := rfl
@[simp] theorem pinWriteClk_bright (b : Bool) : (pinWriteClk b s).bright = s.bright := rfl
@[simp] theorem pinWriteClk_dispOn (b : Bool) : (pinWriteClk b s).dispOn = s.dispOn := rfl
@[simp] theorem pinWriteClk_blinkOn (b : Bool) : (pinWriteClk b s).blinkOn = s.blinkOn := rfl
@[simp] theorem pinWriteClk_configured (b : Bool) : (pinWriteClk b s).configured = s.configured := rfl
@[simp] theorem pinWriteClk_errCnt (b : Bool) : (pinWriteClk b s).errCnt = s.errCnt := rfl
@[simp] theorem pinWriteClk_attCnt (b : Bool) : (pinWriteClk b s).attCnt = s.attCnt := rfl
@[simp] theorem pinWriteClk_clkDir (b : Bool) : (pinWriteClk b s).clkDir = s.clkDir := rfl
@[simp] theorem pinWriteClk_clkLvl (b : Bool) : (pinWriteClk b s).clkLvl = .known b := rfl
@[simp] theorem pinWriteClk_dioDir (b : Bool) : (pinWriteClk b s).dioDir = s.dioDir := rfl
@[simp] theorem pinWriteClk_dioLatch (b : Bool) : (pinWriteClk b s).dioLatch = s.dioLatch := rfl
@[simp] theorem pinWriteClk_refused (b : Bool) : (pinWriteClk b s).refused = s.refused := rfl
@[simp] theorem pinWriteClk_refuseReason (b : Bool) : (pinWriteClk b s).refuseReason = s.refuseReason := rfl
@[simp] theorem pinWriteClk_cfg (b : Bool) : (pinWriteClk b s).cfg = s.cfg := rfl
@[simp] theorem pinWriteClk_program (b : Bool) : (pinWriteClk b s).program = s.program := rfl
@[simp] theorem pinWriteClk_position (b : Bool) : (pinWriteClk b s).position = s.position := rfl
@[simp] theorem pinWriteClk_seqSlot (b : Bool) : (pinWriteClk b s).seqSlot = s.seqSlot := rfl
@[simp] theorem pinWriteClk_events (b : Bool) : (pinWriteClk b s).events = .clkW b :: s.events := rfl
@[simp] theorem pinWriteClk_results (b : Bool) : (pinWriteClk b s).results = s.results := rfl
@[simp] theorem pinWriteClk_dioAnswers (b : Bool) : (pinWriteClk b s).dioAnswers = s.dioAnswers := rfl
@[simp] theorem pinWriteClk_dioReads (b : Bool) : (pinWriteClk b s).dioReads = s.dioReads := rfl

/-! What `pinWriteDio` does to each field. -/

@[simp] theorem pinWriteDio_level (b : Bool) : (pinWriteDio b s).level = s.level := rfl
@[simp] theorem pinWriteDio_bright (b : Bool) : (pinWriteDio b s).bright = s.bright := rfl
@[simp] theorem pinWriteDio_dispOn (b : Bool) : (pinWriteDio b s).dispOn = s.dispOn := rfl
@[simp] theorem pinWriteDio_blinkOn (b : Bool) : (pinWriteDio b s).blinkOn = s.blinkOn := rfl
@[simp] theorem pinWriteDio_configured (b : Bool) : (pinWriteDio b s).configured = s.configured := rfl
@[simp] theorem pinWriteDio_errCnt (b : Bool) : (pinWriteDio b s).errCnt = s.errCnt := rfl
@[simp] theorem pinWriteDio_attCnt (b : Bool) : (pinWriteDio b s).attCnt = s.attCnt := rfl
@[simp] theorem pinWriteDio_clkDir (b : Bool) : (pinWriteDio b s).clkDir = s.clkDir := rfl
@[simp] theorem pinWriteDio_clkLvl (b : Bool) : (pinWriteDio b s).clkLvl = s.clkLvl := rfl
@[simp] theorem pinWriteDio_dioDir (b : Bool) : (pinWriteDio b s).dioDir = s.dioDir := rfl
@[simp] theorem pinWriteDio_dioLatch (b : Bool) : (pinWriteDio b s).dioLatch = .known b := rfl
@[simp] theorem pinWriteDio_refused (b : Bool) : (pinWriteDio b s).refused = s.refused := rfl
@[simp] theorem pinWriteDio_refuseReason (b : Bool) : (pinWriteDio b s).refuseReason = s.refuseReason := rfl
@[simp] theorem pinWriteDio_cfg (b : Bool) : (pinWriteDio b s).cfg = s.cfg := rfl
@[simp] theorem pinWriteDio_program (b : Bool) : (pinWriteDio b s).program = s.program := rfl
@[simp] theorem pinWriteDio_position (b : Bool) : (pinWriteDio b s).position = s.position := rfl
@[simp] theorem pinWriteDio_seqSlot (b : Bool) : (pinWriteDio b s).seqSlot = s.seqSlot := rfl
@[simp] theorem pinWriteDio_events (b : Bool) : (pinWriteDio b s).events = .dioW b :: s.events := rfl
@[simp] theorem pinWriteDio_results (b : Bool) : (pinWriteDio b s).results = s.results := rfl
@[simp] theorem pinWriteDio_dioAnswers (b : Bool) : (pinWriteDio b s).dioAnswers = s.dioAnswers := rfl
@[simp] theorem pinWriteDio_dioReads (b : Bool) : (pinWriteDio b s).dioReads = s.dioReads := rfl

/-! What `delay` does to each field. -/

@[simp] theorem delay_level (d : Nat) : (delay d s).level = s.level := rfl
@[simp] theorem delay_bright (d : Nat) : (delay d s).bright = s.bright := rfl
@[simp] theorem delay_dispOn (d : Nat) : (delay d s).dispOn = s.dispOn := rfl
@[simp] theorem delay_blinkOn (d : Nat) : (delay d s).blinkOn = s.blinkOn := rfl
@[simp] theorem delay_configured (d : Nat) : (delay d s).configured = s.configured := rfl
@[simp] theorem delay_errCnt (d : Nat) : (delay d s).errCnt = s.errCnt := rfl
@[simp] theorem delay_attCnt (d : Nat) : (delay d s).attCnt = s.attCnt := rfl
@[simp] theorem delay_clkDir (d : Nat) : (delay d s).clkDir = s.clkDir := rfl
@[simp] theorem delay_clkLvl (d : Nat) : (delay d s).clkLvl = s.clkLvl := rfl
@[simp] theorem delay_dioDir (d : Nat) : (delay d s).dioDir = s.dioDir := rfl
@[simp] theorem delay_dioLatch (d : Nat) : (delay d s).dioLatch = s.dioLatch := rfl
@[simp] theorem delay_refused (d : Nat) : (delay d s).refused = s.refused := rfl
@[simp] theorem delay_refuseReason (d : Nat) : (delay d s).refuseReason = s.refuseReason := rfl
@[simp] theorem delay_cfg (d : Nat) : (delay d s).cfg = s.cfg := rfl
@[simp] theorem delay_program (d : Nat) : (delay d s).program = s.program := rfl
@[simp] theorem delay_position (d : Nat) : (delay d s).position = s.position := rfl
@[simp] theorem delay_seqSlot (d : Nat) : (delay d s).seqSlot = s.seqSlot := rfl
@[simp] theorem delay_events (d : Nat) : (delay d s).events = .delay d :: s.events := rfl
@[simp] theorem delay_results (d : Nat) : (delay d s).results = s.results := rfl
@[simp] theorem delay_dioAnswers (d : Nat) : (delay d s).dioAnswers = s.dioAnswers := rfl
@[simp] theorem delay_dioReads (d : Nat) : (delay d s).dioReads = s.dioReads := rfl

/-! What `refuse` does to each field. -/

@[simp] theorem refuse_level (r : RefuseReason) : (refuse r s).level = s.level := rfl
@[simp] theorem refuse_bright (r : RefuseReason) : (refuse r s).bright = s.bright := rfl
@[simp] theorem refuse_dispOn (r : RefuseReason) : (refuse r s).dispOn = s.dispOn := rfl
@[simp] theorem refuse_blinkOn (r : RefuseReason) : (refuse r s).blinkOn = s.blinkOn := rfl
@[simp] theorem refuse_configured (r : RefuseReason) : (refuse r s).configured = s.configured := rfl
@[simp] theorem refuse_errCnt (r : RefuseReason) : (refuse r s).errCnt = s.errCnt := rfl
@[simp] theorem refuse_attCnt (r : RefuseReason) : (refuse r s).attCnt = s.attCnt := rfl
@[simp] theorem refuse_clkDir (r : RefuseReason) : (refuse r s).clkDir = s.clkDir := rfl
@[simp] theorem refuse_clkLvl (r : RefuseReason) : (refuse r s).clkLvl = s.clkLvl := rfl
@[simp] theorem refuse_dioDir (r : RefuseReason) : (refuse r s).dioDir = s.dioDir := rfl
@[simp] theorem refuse_dioLatch (r : RefuseReason) : (refuse r s).dioLatch = s.dioLatch := rfl
@[simp] theorem refuse_refused (r : RefuseReason) : (refuse r s).refused = true := rfl
@[simp] theorem refuse_refuseReason (r : RefuseReason) : (refuse r s).refuseReason = if s.refuseReason = none then some r else s.refuseReason := rfl
@[simp] theorem refuse_cfg (r : RefuseReason) : (refuse r s).cfg = s.cfg := rfl
@[simp] theorem refuse_program (r : RefuseReason) : (refuse r s).program = s.program := rfl
@[simp] theorem refuse_position (r : RefuseReason) : (refuse r s).position = s.position := rfl
@[simp] theorem refuse_seqSlot (r : RefuseReason) : (refuse r s).seqSlot = s.seqSlot := rfl
@[simp] theorem refuse_events (r : RefuseReason) : (refuse r s).events = s.events := rfl
@[simp] theorem refuse_results (r : RefuseReason) : (refuse r s).results = s.results := rfl
@[simp] theorem refuse_dioAnswers (r : RefuseReason) : (refuse r s).dioAnswers = s.dioAnswers := rfl
@[simp] theorem refuse_dioReads (r : RefuseReason) : (refuse r s).dioReads = s.dioReads := rfl

/-! What `advance` does to each field. -/

@[simp] theorem advance_level : (advance s).level = s.level := rfl
@[simp] theorem advance_bright : (advance s).bright = s.bright := rfl
@[simp] theorem advance_dispOn : (advance s).dispOn = s.dispOn := rfl
@[simp] theorem advance_blinkOn : (advance s).blinkOn = s.blinkOn := rfl
@[simp] theorem advance_configured : (advance s).configured = s.configured := rfl
@[simp] theorem advance_errCnt : (advance s).errCnt = s.errCnt := rfl
@[simp] theorem advance_attCnt : (advance s).attCnt = s.attCnt := rfl
@[simp] theorem advance_clkDir : (advance s).clkDir = s.clkDir := rfl
@[simp] theorem advance_clkLvl : (advance s).clkLvl = s.clkLvl := rfl
@[simp] theorem advance_dioDir : (advance s).dioDir = s.dioDir := rfl
@[simp] theorem advance_dioLatch : (advance s).dioLatch = s.dioLatch := rfl
@[simp] theorem advance_refused : (advance s).refused = s.refused := rfl
@[simp] theorem advance_refuseReason : (advance s).refuseReason = s.refuseReason := rfl
@[simp] theorem advance_cfg : (advance s).cfg = s.cfg := rfl
@[simp] theorem advance_program : (advance s).program = s.program := rfl
@[simp] theorem advance_position : (advance s).position = s.position + 1 := rfl
@[simp] theorem advance_seqSlot : (advance s).seqSlot = s.seqSlot := rfl
@[simp] theorem advance_events : (advance s).events = s.events := rfl
@[simp] theorem advance_results : (advance s).results = s.results := rfl
@[simp] theorem advance_dioAnswers : (advance s).dioAnswers = s.dioAnswers := rfl
@[simp] theorem advance_dioReads : (advance s).dioReads = s.dioReads := rfl

/-! What `clearSlot` does to each field. -/

@[simp] theorem clearSlot_level : (clearSlot s).level = s.level := rfl
@[simp] theorem clearSlot_bright : (clearSlot s).bright = s.bright := rfl
@[simp] theorem clearSlot_dispOn : (clearSlot s).dispOn = s.dispOn := rfl
@[simp] theorem clearSlot_blinkOn : (clearSlot s).blinkOn = s.blinkOn := rfl
@[simp] theorem clearSlot_configured : (clearSlot s).configured = s.configured := rfl
@[simp] theorem clearSlot_errCnt : (clearSlot s).errCnt = s.errCnt := rfl
@[simp] theorem clearSlot_attCnt : (clearSlot s).attCnt = s.attCnt := rfl
@[simp] theorem clearSlot_clkDir : (clearSlot s).clkDir = s.clkDir := rfl
@[simp] theorem clearSlot_clkLvl : (clearSlot s).clkLvl = s.clkLvl := rfl
@[simp] theorem clearSlot_dioDir : (clearSlot s).dioDir = s.dioDir := rfl
@[simp] theorem clearSlot_dioLatch : (clearSlot s).dioLatch = s.dioLatch := rfl
@[simp] theorem clearSlot_refused : (clearSlot s).refused = s.refused := rfl
@[simp] theorem clearSlot_refuseReason : (clearSlot s).refuseReason = s.refuseReason := rfl
@[simp] theorem clearSlot_cfg : (clearSlot s).cfg = s.cfg := rfl
@[simp] theorem clearSlot_program : (clearSlot s).program = s.program := rfl
@[simp] theorem clearSlot_position : (clearSlot s).position = s.position := rfl
@[simp] theorem clearSlot_seqSlot : (clearSlot s).seqSlot = none := rfl
@[simp] theorem clearSlot_events : (clearSlot s).events = s.events := rfl
@[simp] theorem clearSlot_results : (clearSlot s).results = s.results := rfl
@[simp] theorem clearSlot_dioAnswers : (clearSlot s).dioAnswers = s.dioAnswers := rfl
@[simp] theorem clearSlot_dioReads : (clearSlot s).dioReads = s.dioReads := rfl

/-! What `record` does to each field. -/

@[simp] theorem record_level (es : List Event) : (s.record es).level = s.level := rfl
@[simp] theorem record_bright (es : List Event) : (s.record es).bright = s.bright := rfl
@[simp] theorem record_dispOn (es : List Event) : (s.record es).dispOn = s.dispOn := rfl
@[simp] theorem record_blinkOn (es : List Event) : (s.record es).blinkOn = s.blinkOn := rfl
@[simp] theorem record_configured (es : List Event) : (s.record es).configured = s.configured := rfl
@[simp] theorem record_errCnt (es : List Event) : (s.record es).errCnt = s.errCnt := rfl
@[simp] theorem record_attCnt (es : List Event) : (s.record es).attCnt = s.attCnt := rfl
@[simp] theorem record_clkDir (es : List Event) : (s.record es).clkDir = s.clkDir := rfl
@[simp] theorem record_clkLvl (es : List Event) : (s.record es).clkLvl = s.clkLvl := rfl
@[simp] theorem record_dioDir (es : List Event) : (s.record es).dioDir = s.dioDir := rfl
@[simp] theorem record_dioLatch (es : List Event) : (s.record es).dioLatch = s.dioLatch := rfl
@[simp] theorem record_refused (es : List Event) : (s.record es).refused = s.refused := rfl
@[simp] theorem record_refuseReason (es : List Event) : (s.record es).refuseReason = s.refuseReason := rfl
@[simp] theorem record_cfg (es : List Event) : (s.record es).cfg = s.cfg := rfl
@[simp] theorem record_program (es : List Event) : (s.record es).program = s.program := rfl
@[simp] theorem record_position (es : List Event) : (s.record es).position = s.position := rfl
@[simp] theorem record_seqSlot (es : List Event) : (s.record es).seqSlot = s.seqSlot := rfl
@[simp] theorem record_events (es : List Event) : (s.record es).events = es.reverse ++ s.events := rfl
@[simp] theorem record_results (es : List Event) : (s.record es).results = s.results := rfl
@[simp] theorem record_dioAnswers (es : List Event) : (s.record es).dioAnswers = s.dioAnswers := rfl
@[simp] theorem record_dioReads (es : List Event) : (s.record es).dioReads = s.dioReads := rfl

/-! What `drive` does to each field. -/

@[simp] theorem drive_level (es : List Event) (k : Level) (d : DioDir) (l : Level) : (s.drive es k d l).level = s.level := rfl
@[simp] theorem drive_bright (es : List Event) (k : Level) (d : DioDir) (l : Level) : (s.drive es k d l).bright = s.bright := rfl
@[simp] theorem drive_dispOn (es : List Event) (k : Level) (d : DioDir) (l : Level) : (s.drive es k d l).dispOn = s.dispOn := rfl
@[simp] theorem drive_blinkOn (es : List Event) (k : Level) (d : DioDir) (l : Level) : (s.drive es k d l).blinkOn = s.blinkOn := rfl
@[simp] theorem drive_configured (es : List Event) (k : Level) (d : DioDir) (l : Level) : (s.drive es k d l).configured = s.configured := rfl
@[simp] theorem drive_errCnt (es : List Event) (k : Level) (d : DioDir) (l : Level) : (s.drive es k d l).errCnt = s.errCnt := rfl
@[simp] theorem drive_attCnt (es : List Event) (k : Level) (d : DioDir) (l : Level) : (s.drive es k d l).attCnt = s.attCnt := rfl
@[simp] theorem drive_clkDir (es : List Event) (k : Level) (d : DioDir) (l : Level) : (s.drive es k d l).clkDir = s.clkDir := rfl
@[simp] theorem drive_clkLvl (es : List Event) (k : Level) (d : DioDir) (l : Level) : (s.drive es k d l).clkLvl = k := rfl
@[simp] theorem drive_dioDir (es : List Event) (k : Level) (d : DioDir) (l : Level) : (s.drive es k d l).dioDir = d := rfl
@[simp] theorem drive_dioLatch (es : List Event) (k : Level) (d : DioDir) (l : Level) : (s.drive es k d l).dioLatch = l := rfl
@[simp] theorem drive_refused (es : List Event) (k : Level) (d : DioDir) (l : Level) : (s.drive es k d l).refused = s.refused := rfl
@[simp] theorem drive_refuseReason (es : List Event) (k : Level) (d : DioDir) (l : Level) : (s.drive es k d l).refuseReason = s.refuseReason := rfl
@[simp] theorem drive_cfg (es : List Event) (k : Level) (d : DioDir) (l : Level) : (s.drive es k d l).cfg = s.cfg := rfl
@[simp] theorem drive_program (es : List Event) (k : Level) (d : DioDir) (l : Level) : (s.drive es k d l).program = s.program := rfl
@[simp] theorem drive_position (es : List Event) (k : Level) (d : DioDir) (l : Level) : (s.drive es k d l).position = s.position := rfl
@[simp] theorem drive_seqSlot (es : List Event) (k : Level) (d : DioDir) (l : Level) : (s.drive es k d l).seqSlot = s.seqSlot := rfl
@[simp] theorem drive_events (es : List Event) (k : Level) (d : DioDir) (l : Level) : (s.drive es k d l).events = es.reverse ++ s.events := rfl
@[simp] theorem drive_results (es : List Event) (k : Level) (d : DioDir) (l : Level) : (s.drive es k d l).results = s.results := rfl
@[simp] theorem drive_dioAnswers (es : List Event) (k : Level) (d : DioDir) (l : Level) : (s.drive es k d l).dioAnswers = s.dioAnswers := rfl
@[simp] theorem drive_dioReads (es : List Event) (k : Level) (d : DioDir) (l : Level) : (s.drive es k d l).dioReads = s.dioReads := rfl

/-! What `afterReads` does to each field. -/

@[simp] theorem afterReads_level (n : Nat) : (s.afterReads n).level = s.level := rfl
@[simp] theorem afterReads_bright (n : Nat) : (s.afterReads n).bright = s.bright := rfl
@[simp] theorem afterReads_dispOn (n : Nat) : (s.afterReads n).dispOn = s.dispOn := rfl
@[simp] theorem afterReads_blinkOn (n : Nat) : (s.afterReads n).blinkOn = s.blinkOn := rfl
@[simp] theorem afterReads_configured (n : Nat) : (s.afterReads n).configured = s.configured := rfl
@[simp] theorem afterReads_errCnt (n : Nat) : (s.afterReads n).errCnt = s.errCnt := rfl
@[simp] theorem afterReads_attCnt (n : Nat) : (s.afterReads n).attCnt = s.attCnt := rfl
@[simp] theorem afterReads_clkDir (n : Nat) : (s.afterReads n).clkDir = s.clkDir := rfl
@[simp] theorem afterReads_clkLvl (n : Nat) : (s.afterReads n).clkLvl = s.clkLvl := rfl
@[simp] theorem afterReads_dioDir (n : Nat) : (s.afterReads n).dioDir = s.dioDir := rfl
@[simp] theorem afterReads_dioLatch (n : Nat) : (s.afterReads n).dioLatch = s.dioLatch := rfl
@[simp] theorem afterReads_refused (n : Nat) : (s.afterReads n).refused = s.refused := rfl
@[simp] theorem afterReads_refuseReason (n : Nat) : (s.afterReads n).refuseReason = s.refuseReason := rfl
@[simp] theorem afterReads_cfg (n : Nat) : (s.afterReads n).cfg = s.cfg := rfl
@[simp] theorem afterReads_program (n : Nat) : (s.afterReads n).program = s.program := rfl
@[simp] theorem afterReads_position (n : Nat) : (s.afterReads n).position = s.position := rfl
@[simp] theorem afterReads_seqSlot (n : Nat) : (s.afterReads n).seqSlot = s.seqSlot := rfl
@[simp] theorem afterReads_events (n : Nat) : (s.afterReads n).events = s.events := rfl
@[simp] theorem afterReads_results (n : Nat) : (s.afterReads n).results = s.results := rfl
@[simp] theorem afterReads_dioAnswers (n : Nat) : (s.afterReads n).dioAnswers = s.dioAnswers.drop n := rfl
@[simp] theorem afterReads_dioReads (n : Nat) : (s.afterReads n).dioReads = s.dioReads + n := rfl

/-! What `initDisplay` does to each field. -/

@[simp] theorem initDisplay_level : (initDisplay s).level = 0#3 := rfl
@[simp] theorem initDisplay_bright : (initDisplay s).bright = .typical := rfl
@[simp] theorem initDisplay_dispOn : (initDisplay s).dispOn = true := rfl
@[simp] theorem initDisplay_blinkOn : (initDisplay s).blinkOn = false := rfl
@[simp] theorem initDisplay_configured : (initDisplay s).configured = true := rfl
@[simp] theorem initDisplay_errCnt : (initDisplay s).errCnt = s.errCnt := rfl
@[simp] theorem initDisplay_attCnt : (initDisplay s).attCnt = s.attCnt := rfl
@[simp] theorem initDisplay_clkDir : (initDisplay s).clkDir = s.clkDir := rfl
@[simp] theorem initDisplay_clkLvl : (initDisplay s).clkLvl = s.clkLvl := rfl
@[simp] theorem initDisplay_dioDir : (initDisplay s).dioDir = s.dioDir := rfl
@[simp] theorem initDisplay_dioLatch : (initDisplay s).dioLatch = s.dioLatch := rfl
@[simp] theorem initDisplay_refused : (initDisplay s).refused = s.refused := rfl
@[simp] theorem initDisplay_refuseReason : (initDisplay s).refuseReason = s.refuseReason := rfl
@[simp] theorem initDisplay_cfg : (initDisplay s).cfg = s.cfg := rfl
@[simp] theorem initDisplay_program : (initDisplay s).program = s.program := rfl
@[simp] theorem initDisplay_position : (initDisplay s).position = s.position := rfl
@[simp] theorem initDisplay_seqSlot : (initDisplay s).seqSlot = s.seqSlot := rfl
@[simp] theorem initDisplay_events : (initDisplay s).events = s.events := rfl
@[simp] theorem initDisplay_results : (initDisplay s).results = s.results := rfl
@[simp] theorem initDisplay_dioAnswers : (initDisplay s).dioAnswers = s.dioAnswers := rfl
@[simp] theorem initDisplay_dioReads : (initDisplay s).dioReads = s.dioReads := rfl

/-- Recording events appends them to the trace. -/
@[simp] theorem record_trace (es : List Event) : (s.record es).trace = s.trace ++ es := by
  simp [State.trace]

/-- One event is appended to the trace. -/
@[simp] theorem emit_trace (e : Event) : (emit e s).trace = s.trace ++ [e] := by
  simp [State.trace]

/-- Two recordings are one. -/
@[simp] theorem record_record (es fs : List Event) : (s.record es).record fs = s.record (es ++ fs) := by
  simp [State.record]

/-- Driving the lines appends the events to the trace. -/
@[simp] theorem drive_trace (es : List Event) (k : Level) (d : DioDir) (l : Level) :
    (s.drive es k d l).trace = s.trace ++ es := by
  simp [State.trace]

/-- Driving twice: the events join and the last levels stand. -/
@[simp] theorem drive_drive (es fs : List Event) (k k' : Level) (d d' : DioDir) (l l' : Level) :
    (s.drive es k d l).drive fs k' d' l' = s.drive (es ++ fs) k' d' l' := by
  simp [State.drive]

/-- Using answers leaves the trace. -/
@[simp] theorem afterReads_trace (n : Nat) : (s.afterReads n).trace = s.trace := rfl

/-- Recording nothing changes nothing. -/
@[simp] theorem record_nil : s.record [] = s := rfl

/-- Using no answer changes nothing. -/
@[simp] theorem afterReads_zero : s.afterReads 0 = s := rfl

/-- Answers used twice add up. -/
@[simp] theorem afterReads_afterReads (m n : Nat) : (s.afterReads m).afterReads n = s.afterReads (m + n) := by
  simp [State.afterReads, Nat.add_assoc]

end Sys2Proof.Machine
end

