-- ==== Sys2Proof/Laws/Ops.lean ====
section
/-!
SUPPORT. What the shared operations do, said once: the pin primitives as one `drive` each (20_memory.md rules R40 to
R45), the oracle (rule R43) and the counters (40_bus_engine.md rule R76).
-/

namespace Sys2Proof.Machine

variable (s : State)

/-- A write on CLK drives the line. -/
theorem pinWriteClk_eq (b : Bool) : pinWriteClk b s = s.drive [.clkW b] (.known b) s.dioDir s.dioLatch := rfl

/-- A write on DIO drives the line. -/
theorem pinWriteDio_eq (b : Bool) : pinWriteDio b s = s.drive [.dioW b] s.clkLvl s.dioDir (.known b) := rfl

/-- DIO becomes an input; its latch stands. -/
theorem pinCfgInDio_eq : pinCfgInDio s = s.drive [.dioCfgIn] s.clkLvl .inp s.dioLatch := rfl

/-- DIO becomes an output; its latch stands where DIO_LATCH_KEPT holds. -/
theorem pinCfgOutDio_eq : pinCfgOutDio s =
    s.drive [.dioCfgOut] s.clkLvl .out (if s.cfg.dioLatchKept then s.dioLatch else .unk) := rfl

/-- A wait moves no line. -/
theorem delay_eq (d : Nat) : delay d s = s.drive [.delay d] s.clkLvl s.dioDir s.dioLatch := rfl

/-- The half-cycle wait. -/
theorem delayHalf_eq : delayHalf s = s.drive [waitHalf s.cfg] s.clkLvl s.dioDir s.dioLatch := rfl

/-- The quarter-cycle wait. -/
theorem delayQuarter_eq : delayQuarter s = s.drive [waitQuarter s.cfg] s.clkLvl s.dioDir s.dioLatch := rfl

/-- The diagnostic event moves no line. -/
theorem diagNack_eq (v : Byte) : diagNack v s =
    s.drive (if s.cfg.logEnabled then [.diagNack v] else []) s.clkLvl s.dioDir s.dioLatch := by
  unfold diagNack
  cases s.cfg.logEnabled <;> rfl

/-- Recording is driving the lines at the levels they have. -/
theorem drive_self (es : List Event) : s.drive es s.clkLvl s.dioDir s.dioLatch = s.record es := rfl

/-- Recorded events come before driven ones. -/
@[simp] theorem record_drive (es fs : List Event) (k : Level) (d : DioDir) (l : Level) :
    (s.record es).drive fs k d l = s.drive (es ++ fs) k d l := by
  simp [State.drive, State.record]

/-- Answers used after the lines were driven. -/
@[simp] theorem drive_afterReads (es : List Event) (k : Level) (d : DioDir) (l : Level) (n : Nat) :
    (s.drive es k d l).afterReads n = (s.afterReads n).drive es k d l := rfl

/-- Counting after the lines were driven. -/
@[simp] theorem drive_counted (es : List Event) (k : Level) (d : DioDir) (l : Level) (m n : Nat) :
    (s.drive es k d l).counted m n = (s.counted m n).drive es k d l := by
  unfold State.counted
  rw [drive_cfg]
  split <;> rfl

/-- Counting after answers were used. -/
@[simp] theorem afterReads_counted (r m n : Nat) :
    (s.afterReads r).counted m n = (s.counted m n).afterReads r := by
  unfold State.counted
  rw [afterReads_cfg]
  split <;> rfl

/-- The oracle's answers after `n` of them were used. -/
theorem afterReads_answer_apply (n k : Nat) : (s.afterReads n).answer k = s.answer (n + k) := by
  simp [State.answer, List.getD_eq_getElem?_getD, Nat.add_assoc]

/-- The answer stream after `n` answers were used. -/
@[simp] theorem afterReads_answer (n : Nat) : (s.afterReads n).answer = laterAnswers n s.answer :=
  funext fun k => afterReads_answer_apply s n k

/-- Driving the lines leaves the coming answers. -/
@[simp] theorem drive_answer (es : List Event) (k : Level) (d : DioDir) (l : Level) :
    (s.drive es k d l).answer = s.answer := rfl

/-- Recording leaves the coming answers. -/
@[simp] theorem record_answer (es : List Event) : (s.record es).answer = s.answer := rfl

/-- Answers used twice. -/
@[simp] theorem laterAnswers_laterAnswers (m n : Nat) (ans : Nat → Bool) :
    laterAnswers m (laterAnswers n ans) = laterAnswers (n + m) ans := by
  funext k; simp [laterAnswers, Nat.add_assoc]

/-- No answer used. -/
@[simp] theorem laterAnswers_zero (ans : Nat → Bool) : laterAnswers 0 ans = ans := by
  funext k; simp [laterAnswers]

/-- A read answers with the oracle, uses one answer and records its event. -/
theorem pinRead_eq : pinRead s = (s.answer 0, (s.afterReads 1).record [.dioR (s.answer 0)]) := by
  simp [pinRead, emit, State.record, State.afterReads, List.drop_one]

/-- Counting no byte changes nothing. -/
@[simp] theorem counted_zero : s.counted 0 0 = s := by
  simp [State.counted]

/-- What counting leaves, field by field but for the counters. -/
theorem counted_eq (m k : Nat) : s.counted m k =
    { s with
      attCnt := if s.cfg.hasCounters then s.attCnt + BitVec.ofNat 32 m else s.attCnt
      errCnt := if s.cfg.hasCounters then s.errCnt + BitVec.ofNat 32 k else s.errCnt } := by
  unfold State.counted
  cases s.cfg.hasCounters <;> rfl

@[simp] theorem counted_cfg (m k : Nat) : (s.counted m k).cfg = s.cfg := by rw [counted_eq]
@[simp] theorem counted_level (m k : Nat) : (s.counted m k).level = s.level := by rw [counted_eq]
@[simp] theorem counted_bright (m k : Nat) : (s.counted m k).bright = s.bright := by rw [counted_eq]
@[simp] theorem counted_dispOn (m k : Nat) : (s.counted m k).dispOn = s.dispOn := by rw [counted_eq]
@[simp] theorem counted_blinkOn (m k : Nat) : (s.counted m k).blinkOn = s.blinkOn := by rw [counted_eq]
@[simp] theorem counted_configured (m k : Nat) : (s.counted m k).configured = s.configured := by rw [counted_eq]
@[simp] theorem counted_clkDir (m k : Nat) : (s.counted m k).clkDir = s.clkDir := by rw [counted_eq]
@[simp] theorem counted_clkLvl (m k : Nat) : (s.counted m k).clkLvl = s.clkLvl := by rw [counted_eq]
@[simp] theorem counted_dioDir (m k : Nat) : (s.counted m k).dioDir = s.dioDir := by rw [counted_eq]
@[simp] theorem counted_dioLatch (m k : Nat) : (s.counted m k).dioLatch = s.dioLatch := by rw [counted_eq]
@[simp] theorem counted_refused (m k : Nat) : (s.counted m k).refused = s.refused := by rw [counted_eq]
@[simp] theorem counted_refuseReason (m k : Nat) : (s.counted m k).refuseReason = s.refuseReason := by rw [counted_eq]
@[simp] theorem counted_program (m k : Nat) : (s.counted m k).program = s.program := by rw [counted_eq]
@[simp] theorem counted_position (m k : Nat) : (s.counted m k).position = s.position := by rw [counted_eq]
@[simp] theorem counted_seqSlot (m k : Nat) : (s.counted m k).seqSlot = s.seqSlot := by rw [counted_eq]
@[simp] theorem counted_events (m k : Nat) : (s.counted m k).events = s.events := by rw [counted_eq]
@[simp] theorem counted_results (m k : Nat) : (s.counted m k).results = s.results := by rw [counted_eq]
@[simp] theorem counted_dioAnswers (m k : Nat) : (s.counted m k).dioAnswers = s.dioAnswers := by rw [counted_eq]
@[simp] theorem counted_dioReads (m k : Nat) : (s.counted m k).dioReads = s.dioReads := by rw [counted_eq]

/-- The counters after counting (40_bus_engine.md rule R76). -/
theorem counted_attCnt (m k : Nat) : (s.counted m k).attCnt =
    if s.cfg.hasCounters then s.attCnt + BitVec.ofNat 32 m else s.attCnt := by rw [counted_eq]

/-- The counters after counting (40_bus_engine.md rule R76). -/
theorem counted_errCnt (m k : Nat) : (s.counted m k).errCnt =
    if s.cfg.hasCounters then s.errCnt + BitVec.ofNat 32 k else s.errCnt := by rw [counted_eq]

/-- Counting leaves the coming answers. -/
@[simp] theorem counted_answer (m k : Nat) : (s.counted m k).answer = s.answer := by
  funext j; simp [State.answer]

/-- Counting leaves the trace. -/
@[simp] theorem counted_trace (m k : Nat) : (s.counted m k).trace = s.trace := by
  simp [State.trace]

/-- Counting twice adds up. -/
@[simp] theorem counted_counted (m k m' k' : Nat) :
    (s.counted m k).counted m' k' = s.counted (m + m') (k + k') := by
  unfold State.counted
  by_cases h : s.cfg.hasCounters = true <;> simp [h, BitVec.ofNat_add, BitVec.add_assoc]

/-- The counter side effect of one byte, as a count (40_bus_engine.md rule R76). -/
theorem countByte_eq (ack : Bool) : countByte ack s = s.counted 1 (if ack then 0 else 1) := by
  unfold countByte State.counted bump
  cases ack <;> simp

end Sys2Proof.Machine
end

