-- ==== Sys2Proof/Laws/BusEngine.lean ====
section
/-!
SUPPORT. The bus engine's operations as equations between states (40_bus_engine.md rules R69 to R74), in the trace
notation of Machine/Trace.lean.
-/

namespace Sys2Proof.Machine

variable (s : State)

/-- The start sequence (rule R69). -/
theorem assertStart_eq : assertStart s = s.drive (traceStart s.cfg) (.known true) s.dioDir (.known false) := by
  simp only [assertStart, pinWriteDio_eq, pinWriteClk_eq, delayHalf_eq, delayQuarter_eq, drive_drive, drive_cfg,
    drive_clkLvl, drive_dioDir, drive_dioLatch]
  rfl

/-- The stop sequence (rule R70). -/
theorem assertStop_eq : assertStop s = s.drive (traceStop s.cfg) (.known true) s.dioDir (.known true) := by
  simp only [assertStop, pinWriteDio_eq, pinWriteClk_eq, delayHalf_eq, delayQuarter_eq, drive_drive, drive_cfg,
    drive_clkLvl, drive_dioDir, drive_dioLatch]
  rfl

/-- A data bit put on the line (rule R71). -/
theorem sendBit_eq (b : Bool) : sendBit b s =
    s.drive [.clkW false, waitQuarter s.cfg, .dioW b, waitQuarter s.cfg] (.known false) s.dioDir (.known b) := by
  simp only [sendBit, pinWriteDio_eq, pinWriteClk_eq, delayQuarter_eq, drive_drive, drive_cfg, drive_clkLvl,
    drive_dioDir, drive_dioLatch]
  rfl

/-- The high half of a bit cycle (rule R72). -/
theorem raiseClock_eq : raiseClock s =
    s.drive [.clkW true, waitHalf s.cfg] (.known true) s.dioDir s.dioLatch := by
  simp only [raiseClock, pinWriteClk_eq, delayHalf_eq, drive_drive, drive_cfg, drive_clkLvl, drive_dioDir,
    drive_dioLatch]
  rfl

/-- One bit cycle (rules R71 and R72). -/
theorem bitCycle_eq (b : Bool) : raiseClock (sendBit b s) =
    s.drive (traceBit s.cfg b) (.known true) s.dioDir (.known b) := by
  simp only [raiseClock_eq, sendBit_eq, drive_drive, drive_cfg, drive_dioDir, drive_dioLatch]
  rfl

/-- The eight data bits of a byte (rule R73). -/
theorem sendBits_eq (v : Byte) : sendBits v s =
    s.drive (traceBits s.cfg v) (.known true) s.dioDir (.known (v.getLsbD 7)) := by
  have h : bitsLsbFirst v = [v.getLsbD 0, v.getLsbD 1, v.getLsbD 2, v.getLsbD 3, v.getLsbD 4, v.getLsbD 5,
    v.getLsbD 6, v.getLsbD 7] := rfl
  simp only [sendBits, h, List.foldl, bitCycle_eq, drive_drive, drive_cfg, drive_dioDir]
  rfl

/-- The sampling loop reads up to and with the first 0 (rule R74). -/
theorem sampleAck_eq (n : Nat) : sampleAck n s =
    (ackOf (ackReads n s.answer),
      (s.afterReads (ackReads n s.answer).length).record ((ackReads n s.answer).map .dioR)) := by
  induction n generalizing s with
  | zero => rfl
  | succ n ih =>
    have hl : (fun k => s.answer (k + 1)) = laterAnswers 1 s.answer := by
      funext k; simp [laterAnswers, Nat.add_comm]
    rw [sampleAck, pinRead_eq]
    dsimp only
    cases h : s.answer 0 with
    | true =>
      rw [if_pos rfl, ih, record_answer, afterReads_answer]
      simp only [ackReads, h, if_pos, hl]
      refine Prod.ext (by simp [ackOf]) ?_
      simp [State.record, State.afterReads, Nat.add_assoc, Nat.add_comm 1]
    | false => simp [ackReads, h, ackOf]

/-- The acknowledgment phase, by its reads (rule R74). -/
theorem ackPhase_eq : ackPhase s =
    (ackOf (ackReads s.cfg.ackSamples s.answer),
      (s.afterReads (ackReads s.cfg.ackSamples s.answer).length).drive
        (traceAck s.cfg (ackReads s.cfg.ackSamples s.answer)) (.known false) .out
        (latchAfterAck s.cfg (ackReads s.cfg.ackSamples s.answer))) := by
  simp only [ackPhase, sampleAck_eq, pinCfgOutDio_eq, pinCfgInDio_eq, pinWriteDio_eq, pinWriteClk_eq, delayQuarter_eq,
    drive_drive, drive_cfg, drive_clkLvl, drive_dioDir, drive_dioLatch, drive_answer, drive_afterReads]
  generalize ackReads s.cfg.ackSamples s.answer = rs
  refine Prod.ext rfl ?_
  cases h : ackOf rs <;>
    simp [driveLowOnNack, h, ← drive_self, pinWriteDio_eq, traceAck, latchAfterAck]

/-- One transmitted byte (rule R73): the acknowledgment and the state after it. -/
theorem transmitByte_eq (v : Byte) : transmitByte v s =
    (ackOf (ackReads s.cfg.ackSamples s.answer), s.sentByte v) := by
  simp only [transmitByte, ackPhase_eq, sendBits_eq, countByte_eq, drive_cfg, drive_answer, State.sentByte]
  generalize ackReads s.cfg.ackSamples s.answer = rs
  refine Prod.ext rfl ?_
  cases h : ackOf rs <;> cases hl : s.cfg.logEnabled <;>
    simp [reportNack, diagNack_eq, h, hl, traceByte, traceDiag]

/-- A byte's events are appended to the trace. -/
@[simp] theorem sentByte_trace (v : Byte) :
    (s.sentByte v).trace = s.trace ++ traceByte s.cfg v (ackReads s.cfg.ackSamples s.answer) := by
  unfold State.sentByte
  rw [drive_trace]
  simp only [afterReads_trace, counted_trace]

end Sys2Proof.Machine
end

