-- ==== Sys2Proof/Laws/ChipCommands.lean ====
section
/-!
SUPPORT. The transactions as equations between states (41_chip_commands.md rules R81 to R89): what a command sends is
`State.sent` of its transactions.
-/

namespace Sys2Proof.Machine

/-! The reads of several bytes in a row. -/

@[simp] theorem readsOf_length (c : Config) (m : Nat) (ans : Nat → Bool) : (readsOf c m ans).length = m := by
  induction m generalizing ans with
  | zero => rfl
  | succ m ih => simp [readsOf, ih]

@[simp] theorem readCount_zero (c : Config) (ans : Nat → Bool) : readCount c 0 ans = 0 := rfl

@[simp] theorem nackCount_zero (c : Config) (ans : Nat → Bool) : nackCount c 0 ans = 0 := rfl

/-- The reads of one byte and then of the others. -/
theorem readCount_succ (c : Config) (m : Nat) (ans : Nat → Bool) : readCount c (m + 1) ans =
    (ackReads c.ackSamples ans).length +
      readCount c m (laterAnswers (ackReads c.ackSamples ans).length ans) := by
  simp [readCount, readsOf]

/-- The NACKs of one byte and then of the others. -/
theorem nackCount_succ (c : Config) (m : Nat) (ans : Nat → Bool) : nackCount c (m + 1) ans =
    (if ackOf (ackReads c.ackSamples ans) then 0 else 1) +
      nackCount c m (laterAnswers (ackReads c.ackSamples ans).length ans) := by
  unfold nackCount
  rw [readsOf, List.countP_cons, Nat.add_comm]
  cases ackOf (ackReads c.ackSamples ans) <;> rfl

theorem readCount_one (c : Config) (ans : Nat → Bool) :
    readCount c 1 ans = (ackReads c.ackSamples ans).length := by
  simp [readCount_succ]

theorem nackCount_one (c : Config) (ans : Nat → Bool) :
    nackCount c 1 ans = if ackOf (ackReads c.ackSamples ans) then 0 else 1 := by
  simp [nackCount_succ]

/-- The reads of two runs of bytes. -/
theorem readCount_add (c : Config) (m n : Nat) (ans : Nat → Bool) : readCount c (m + n) ans =
    readCount c m ans + readCount c n (laterAnswers (readCount c m ans) ans) := by
  induction m generalizing ans with
  | zero => simp
  | succ m ih =>
    rw [Nat.add_right_comm, readCount_succ, readCount_succ, ih]
    simp [Nat.add_assoc]

/-- The NACKs of two runs of bytes. -/
theorem nackCount_add (c : Config) (m n : Nat) (ans : Nat → Bool) : nackCount c (m + n) ans =
    nackCount c m ans + nackCount c n (laterAnswers (readCount c m ans) ans) := by
  induction m generalizing ans with
  | zero => simp
  | succ m ih =>
    rw [Nat.add_right_comm, nackCount_succ, nackCount_succ, ih, readCount_succ]
    simp [Nat.add_assoc]

theorem traceBytes_cons (c : Config) (v : Byte) (vs : List Byte) (ans : Nat → Bool) :
    traceBytes c (v :: vs) ans = traceByte c v (ackReads c.ackSamples ans) ++
      traceBytes c vs (laterAnswers (ackReads c.ackSamples ans).length ans) := by
  simp [traceBytes, readsOf]

theorem traceBytes_nil (c : Config) (ans : Nat → Bool) : traceBytes c [] ans = [] := rfl

/-- Transactions in a row, in two parts. -/
theorem traceTxns_append (c : Config) (ts us : List (List Byte)) (ans : Nat → Bool) :
    traceTxns c (ts ++ us) ans =
      traceTxns c ts ans ++ traceTxns c us (laterAnswers (readCount c ts.flatten.length ans) ans) := by
  induction ts generalizing ans with
  | nil => simp [traceTxns]
  | cons t ts ih => simp [traceTxns, ih, readCount_add]

/-! What sending does. -/

variable (s : State)

@[simp] theorem sent_cfg (ts : List (List Byte)) : (s.sent ts).cfg = s.cfg := by simp [State.sent]
@[simp] theorem sent_level (ts : List (List Byte)) : (s.sent ts).level = s.level := by simp [State.sent]
@[simp] theorem sent_bright (ts : List (List Byte)) : (s.sent ts).bright = s.bright := by simp [State.sent]
@[simp] theorem sent_dispOn (ts : List (List Byte)) : (s.sent ts).dispOn = s.dispOn := by simp [State.sent]
@[simp] theorem sent_blinkOn (ts : List (List Byte)) : (s.sent ts).blinkOn = s.blinkOn := by simp [State.sent]
@[simp] theorem sent_configured (ts : List (List Byte)) : (s.sent ts).configured = s.configured := by
  simp [State.sent]
@[simp] theorem sent_clkDir (ts : List (List Byte)) : (s.sent ts).clkDir = s.clkDir := by simp [State.sent]
@[simp] theorem sent_clkLvl (ts : List (List Byte)) : (s.sent ts).clkLvl = .known true := by simp [State.sent]
@[simp] theorem sent_dioDir (ts : List (List Byte)) : (s.sent ts).dioDir = .out := by simp [State.sent]
@[simp] theorem sent_dioLatch (ts : List (List Byte)) : (s.sent ts).dioLatch = .known true := by simp [State.sent]
@[simp] theorem sent_refused (ts : List (List Byte)) : (s.sent ts).refused = s.refused := by simp [State.sent]
@[simp] theorem sent_refuseReason (ts : List (List Byte)) : (s.sent ts).refuseReason = s.refuseReason := by
  simp [State.sent]
@[simp] theorem sent_program (ts : List (List Byte)) : (s.sent ts).program = s.program := by simp [State.sent]
@[simp] theorem sent_position (ts : List (List Byte)) : (s.sent ts).position = s.position := by simp [State.sent]
@[simp] theorem sent_seqSlot (ts : List (List Byte)) : (s.sent ts).seqSlot = s.seqSlot := by simp [State.sent]
@[simp] theorem sent_results (ts : List (List Byte)) : (s.sent ts).results = s.results := by simp [State.sent]

/-- Sending appends the transactions' events to the trace. -/
@[simp] theorem sent_trace (ts : List (List Byte)) :
    (s.sent ts).trace = s.trace ++ traceTxns s.cfg ts s.answer := by
  simp [State.sent, State.trace]

/-- The answers that are left after sending. -/
theorem sent_answer (ts : List (List Byte)) :
    (s.sent ts).answer = laterAnswers (readCount s.cfg ts.flatten.length s.answer) s.answer := by
  simp [State.sent]

/-- ATT_CNT after sending (40_bus_engine.md rule R76). -/
theorem sent_attCnt (ts : List (List Byte)) : (s.sent ts).attCnt =
    if s.cfg.hasCounters then s.attCnt + BitVec.ofNat 32 ts.flatten.length else s.attCnt := by
  simp [State.sent, counted_attCnt]

/-- ERR_CNT after sending (40_bus_engine.md rule R76). -/
theorem sent_errCnt (ts : List (List Byte)) : (s.sent ts).errCnt =
    if s.cfg.hasCounters then s.errCnt + BitVec.ofNat 32 (nackCount s.cfg ts.flatten.length s.answer)
    else s.errCnt := by
  simp [State.sent, counted_errCnt]

/-- Sending twice is sending all of it. -/
theorem sent_sent (ts us : List (List Byte)) : (s.sent ts).sent us = s.sent (ts ++ us) := by
  unfold State.sent
  simp only [drive_cfg, afterReads_cfg, counted_cfg, drive_answer, afterReads_answer, counted_answer, drive_counted,
    afterReads_counted, counted_counted, drive_afterReads, afterReads_afterReads, drive_drive, List.flatten_append,
    List.length_append, readCount_add, nackCount_add, traceTxns_append]

/-- The bytes of a transaction: each is sent, whatever the one before was answered (rules R81 and R82). -/
theorem sendBytes_eq (bs : List Byte) (h : bs ≠ []) : ∃ l, sendBytes bs s =
    ((s.counted bs.length (nackCount s.cfg bs.length s.answer)).afterReads
      (readCount s.cfg bs.length s.answer)).drive (traceBytes s.cfg bs s.answer) (.known false) .out l := by
  induction bs generalizing s with
  | nil => exact absurd rfl h
  | cons v vs ih =>
    have hstep : sendBytes (v :: vs) s = sendBytes vs (s.sentByte v) := by
      simp [sendBytes, transmitByte_eq]
    rw [hstep]
    cases vs with
    | nil =>
      refine ⟨latchAfterAck s.cfg (ackReads s.cfg.ackSamples s.answer), ?_⟩
      simp [sendBytes, State.sentByte, readCount_one, nackCount_one, traceBytes_cons, traceBytes_nil]
    | cons w ws =>
      obtain ⟨l, hl⟩ := ih (s.sentByte v) (by simp)
      refine ⟨l, ?_⟩
      rw [hl, traceBytes_cons s.cfg v (w :: ws), List.length_cons (a := v), readCount_succ, nackCount_succ]
      simp [State.sentByte, Nat.add_comm 1]

/-- One framed transaction (rules R81 and R82). -/
theorem txn_eq (bs : List Byte) (h : bs ≠ []) : txn bs s = s.sent [bs] := by
  obtain ⟨l, hl⟩ := sendBytes_eq (assertStart s) bs h
  unfold txn
  rw [hl, assertStop_eq, assertStart_eq]
  simp [State.sent, traceTxns, traceTxn]

/-- TxnFixMode (rule R83). -/
theorem txnFixMode_eq : txnFixMode s = s.sent [[s.cfg.cmdAddrFixed]] := txn_eq s _ (by simp)

/-- TxnLevelData (rule R85). -/
theorem txnLevelData_eq (n : Bits3) : txnLevelData n s = s.sent [[s.cfg.addrLevel, pattern n]] :=
  txn_eq s _ (by simp)

/-- LevelWrite (rule R84). -/
theorem levelWrite_eq (n : Bits3) : levelWrite n s = s.sent (levelTxns s.cfg n) := by
  simp [levelWrite, txnFixMode_eq, txnLevelData_eq, sent_sent, levelTxns]

/-- TxnPower (rule R86). -/
theorem txnPower_eq (on : Bool) : txnPower on s = s.sent (powerTxns s.cfg on s.bright) := txn_eq s _ (by simp)

/-- TxnAutoMode (rule R88). -/
theorem txnAutoMode_eq : txnAutoMode s = s.sent [[s.cfg.cmdAddrAuto]] := txn_eq s _ (by simp)

/-- TxnFrameData (rule R89). -/
theorem txnFrameData_eq (on : Bool) : txnFrameData on s =
    s.sent [[s.cfg.addrFrame, frameData s.cfg on, frameData s.cfg on, frameData s.cfg on]] :=
  txn_eq s _ (by simp)

/-- FrameWrite (rule R87). -/
theorem frameWrite_eq (on : Bool) : frameWrite on s = s.sent (frameTxns s.cfg on) := by
  simp [frameWrite, txnAutoMode_eq, txnFrameData_eq, sent_sent, frameTxns]

end Sys2Proof.Machine
end

