-- ==== Sys2Proof/Laws/Decode.lean ====
section
/-!
SUPPORT. A command word and its two fields (30_encoding.md rule R48), and what a decoded command satisfies.
-/

namespace Sys2Proof

/-- OP as a number. -/
theorem opField_toNat (w : CmdWord) : (opField w).toNat = w.toNat / 256 := by
  simp [opField, BitVec.extractLsb'_toNat, Nat.shiftRight_eq_div_pow]
  omega

/-- IMM8 as a number. -/
theorem immField_toNat (w : CmdWord) : (immField w).toNat = w.toNat % 256 := by
  simp [immField, BitVec.extractLsb'_toNat]

/-- A word as a number: `(OP << 8) | IMM8`. -/
theorem fields_toNat (op imm : Byte) : (op ++ imm : CmdWord).toNat = op.toNat * 256 + imm.toNat := by
  have h := BitVec.toNat_append op imm
  rw [← Nat.shiftLeft_add_eq_or_of_lt imm.isLt, Nat.shiftLeft_eq] at h
  exact h

/-- The OP of a word put together from its fields. -/
@[simp] theorem opField_append (op imm : Byte) : opField (op ++ imm) = op := by
  apply BitVec.eq_of_toNat_eq
  rw [opField_toNat, fields_toNat]
  omega

/-- The IMM8 of a word put together from its fields. -/
@[simp] theorem immField_append (op imm : Byte) : immField (op ++ imm) = imm := by
  apply BitVec.eq_of_toNat_eq
  rw [immField_toNat, fields_toNat]
  omega

/-- The encoded word as a number. -/
theorem encode_toNat (i : Instr) : (encode i).toNat = (opcode i).toNat * 256 + (operandField i).toNat :=
  fields_toNat _ _

/-- The opcode of an encoded instruction. -/
theorem opField_encode (i : Instr) : opField (encode i) = opcode i := opField_append _ _

/-- The operand field of an encoded instruction. -/
theorem immField_encode (i : Instr) : immField (encode i) = operandField i := immField_append _ _

/-- A word is the encoding of the instruction whose fields it has. -/
theorem encode_eq (w : CmdWord) (i : Instr) (ho : opcode i = opField w) (ha : operandField i = immField w) :
    encode i = w := by
  apply BitVec.eq_of_toNat_eq
  rw [encode_toNat, ho, ha, opField_toNat, immField_toNat]
  omega

/-- A decoded command is host-issuable and present (rules R55 and R56). -/
theorem decode_ok (c : Config) (w : CmdWord) (i : Instr) (h : decode c w = .ok i) :
    i.hostIssuable = true ∧ i.present c = true := by
  unfold decode decodeVariant decodeBare at h
  dsimp only at h
  split at h <;> (repeat' split at h) <;> simp only [Except.ok.injEq, reduceCtorEq] at h
  all_goals subst h
  all_goals simp_all [Instr.hostIssuable, Instr.present]

end Sys2Proof
end

