-- ==== Sys2Proof/Laws/Operands.lean ====
section
/-!
SUPPORT. The operand computations in plain numbers (42_display_commands.md rules R94 to R96).
-/

namespace Sys2Proof.Machine

/-- The clamped level as a number (rule R94). -/
theorem clampLevel_toNat (c : Config) (n : Nat) : (clampLevel c n).toNat = min n c.maxLevel.toNat := by
  have := c.maxLevel.isLt
  simp [clampLevel, clamp]
  omega

/-- A percentage up to 100 gives an admitted level (rule R96). -/
theorem levelFromPercent_le (c : Config) (q : Nat) (h : q ≤ 100) : levelFromPercent c q ≤ c.maxLevel.toNat := by
  unfold levelFromPercent
  have : q * c.maxLevel.toNat ≤ 100 * c.maxLevel.toNat := Nat.mul_le_mul_right _ h
  omega

/-- The percentage's level needs no further clamp (rules R95 and R96). -/
theorem percentLevel_toNat (c : Config) (p : Byte) :
    (percentLevel c p).toNat = levelFromPercent c (min p.toNat 100) := by
  have h : clamp p.toNat 0 100 = min p.toNat 100 := by simp [clamp]
  rw [percentLevel, clampLevel_toNat, h]
  exact Nat.min_eq_left (levelFromPercent_le c _ (Nat.min_le_right _ _))

end Sys2Proof.Machine
end

