-- ==== Sys2Proof/Laws/Display.lean ====
section
/-!
SUPPORT. What each host command's body does, as one equation (42_display_commands.md rules R92 to R102), and what a
command that gives a next state has done, guards included (rule R91).
-/

namespace Sys2Proof.Machine

variable (s : State)

/-- Sending overwrites what was driven on the pins before it. -/
theorem drive_sent (es : List Event) (ts : List (List Byte)) (k : Level) (d : DioDir) (l : Level) :
    (s.drive es k d l).sent ts = (s.record es).sent ts := by
  unfold State.sent
  simp only [drive_cfg, drive_answer, drive_counted, drive_afterReads, drive_drive, record_cfg, record_answer]
  simp [State.drive, State.record, counted_eq, State.afterReads]

/-- The registers as SETUP initialises them, with CLK configured (rule R92). -/
def setupRegisters : State :=
  { s with clkDir := .out, configured := true, bright := .typical, level := 0#3, dispOn := true, blinkOn := false }

/-! What SETUP's initialisation leaves. -/

@[simp] theorem setupRegisters_errCnt : (setupRegisters s).errCnt = s.errCnt := rfl
@[simp] theorem setupRegisters_attCnt : (setupRegisters s).attCnt = s.attCnt := rfl
@[simp] theorem setupRegisters_clkLvl : (setupRegisters s).clkLvl = s.clkLvl := rfl
@[simp] theorem setupRegisters_dioDir : (setupRegisters s).dioDir = s.dioDir := rfl
@[simp] theorem setupRegisters_dioLatch : (setupRegisters s).dioLatch = s.dioLatch := rfl
@[simp] theorem setupRegisters_refused : (setupRegisters s).refused = s.refused := rfl
@[simp] theorem setupRegisters_refuseReason : (setupRegisters s).refuseReason = s.refuseReason := rfl
@[simp] theorem setupRegisters_cfg : (setupRegisters s).cfg = s.cfg := rfl
@[simp] theorem setupRegisters_program : (setupRegisters s).program = s.program := rfl
@[simp] theorem setupRegisters_position : (setupRegisters s).position = s.position := rfl
@[simp] theorem setupRegisters_seqSlot : (setupRegisters s).seqSlot = s.seqSlot := rfl
@[simp] theorem setupRegisters_events : (setupRegisters s).events = s.events := rfl
@[simp] theorem setupRegisters_results : (setupRegisters s).results = s.results := rfl
@[simp] theorem setupRegisters_dioAnswers : (setupRegisters s).dioAnswers = s.dioAnswers := rfl
@[simp] theorem setupRegisters_dioReads : (setupRegisters s).dioReads = s.dioReads := rfl
@[simp] theorem setupRegisters_trace : (setupRegisters s).trace = s.trace := rfl
@[simp] theorem setupRegisters_answer : (setupRegisters s).answer = s.answer := rfl

/-- The transactions of SETUP (rule R92). -/
def setupTxns (c : Config) : List (List Byte) := levelTxns c 0#3 ++ powerTxns c true .typical

/-- SETUP (rule R92). -/
theorem setupBody_eq : setupBody s =
    State.sent (State.record (setupRegisters s) [.clkCfgOut, .dioCfgOut]) (setupTxns s.cfg) := by
  have h : initDisplay (pinCfgOutDio (pinCfgOutClk s)) = State.drive (setupRegisters s) [.clkCfgOut, .dioCfgOut]
      s.clkLvl .out (if s.cfg.dioLatchKept then s.dioLatch else .unk) := by
    simp only [initDisplay, pinCfgOutDio, pinCfgOutClk, emit, State.drive, setupRegisters]
    rfl
  rw [setupBody, levelWrite_eq, txnPower_eq, sent_sent, h, drive_sent]
  simp only [sent_cfg, sent_bright, drive_cfg, drive_bright]
  rfl

/-- The transactions of SET_BRIGHTNESS with the class `k`, the display on (rule R93). -/
def brightnessTxns (c : Config) (n : Bits3) (k : BrightClass) : List (List Byte) :=
  (if c.brightnessResendsLevel then levelTxns c n else []) ++ powerTxns c true k

/-- SET_BRIGHTNESS (rule R93). -/
theorem setBrightnessBody_eq (raw : Byte) : setBrightnessBody raw s =
    if s.dispOn then
      State.sent { s with bright := brightClass raw } (brightnessTxns s.cfg s.level (brightClass raw))
    else { s with bright := brightClass raw } := by
  unfold setBrightnessBody brightnessTxns resendLevel
  dsimp only
  split
  · split <;> simp [txnPower_eq, levelWrite_eq, sent_sent]
  · rfl

/-- Storing a level (rule R94). -/
theorem storeLevel_eq (n : Bits3) : storeLevel n s =
    if s.dispOn then State.sent { s with level := n } (levelTxns s.cfg n) else { s with level := n } := by
  simp [storeLevel, levelWrite_eq]

/-- TURN_ON (rule R97). -/
theorem turnOnBody_eq : turnOnBody s =
    State.sent { s with dispOn := true } (levelTxns s.cfg s.level ++ powerTxns s.cfg true s.bright) := by
  simp [turnOnBody, levelWrite_eq, txnPower_eq, sent_sent]

/-- TURN_OFF (rule R98). -/
theorem turnOffBody_eq : turnOffBody s = State.sent { s with dispOn := false } (powerTxns s.cfg false s.bright) := by
  simp [turnOffBody, txnPower_eq]

/-- The blink commands (rules R99 and R100). -/
theorem setBlinkBody_eq (on : Bool) : setBlinkBody on s = State.sent { s with blinkOn := on } (frameTxns s.cfg on) := by
  simp [setBlinkBody, frameWrite_eq]

/-- Whether a command runs, and with which reason it is refused (rule R91). -/
theorem whenRunnable_eq (present : Bool) (body : State → State) :
    present = false ∧ whenRunnable present body s = refuse .variantAbsent s ∨
    present = true ∧ s.configured = false ∧ whenRunnable present body s = refuse .notConfigured s ∨
    present = true ∧ s.configured = true ∧ whenRunnable present body s = body s := by
  unfold whenRunnable
  cases present with
  | false => exact .inl ⟨rfl, rfl⟩
  | true =>
    rcases Bool.eq_false_or_eq_true s.configured with h | h
    · exact .inr (.inr ⟨rfl, h, by rw [h]; rfl⟩)
    · exact .inr (.inl ⟨rfl, h, by rw [h]; rfl⟩)

/-- The effect of a host command that runs, on a configured block: one case for each command. -/
inductive Effect (s : State) : Instr → State → Prop where
  | brightnessOff (raw : Byte) : s.dispOn = false → Effect s (.setBrightness raw) { s with bright := brightClass raw }
  | brightnessOn (raw : Byte) : s.dispOn = true → Effect s (.setBrightness raw)
      (State.sent { s with bright := brightClass raw } (brightnessTxns s.cfg s.level (brightClass raw)))
  | levelOff (n : Byte) : s.dispOn = false → Effect s (.setLevel n) { s with level := clampLevel s.cfg n.toNat }
  | levelOn (n : Byte) : s.dispOn = true → Effect s (.setLevel n)
      (State.sent { s with level := clampLevel s.cfg n.toNat } (levelTxns s.cfg (clampLevel s.cfg n.toNat)))
  | percentOff (p : Byte) : s.dispOn = false → Effect s (.setLevelPercent p) { s with level := percentLevel s.cfg p }
  | percentOn (p : Byte) : s.dispOn = true → Effect s (.setLevelPercent p)
      (State.sent { s with level := percentLevel s.cfg p } (levelTxns s.cfg (percentLevel s.cfg p)))
  | on : Effect s .turnOn
      (State.sent { s with dispOn := true } (levelTxns s.cfg s.level ++ powerTxns s.cfg true s.bright))
  | off : Effect s .turnOff (State.sent { s with dispOn := false } (powerTxns s.cfg false s.bright))
  | blinkOn : s.cfg.blinkSupported = true →
      Effect s .setBlinkOn (State.sent { s with blinkOn := true } (frameTxns s.cfg true))
  | blinkOff : s.cfg.blinkSupported = true →
      Effect s .setBlinkOff (State.sent { s with blinkOn := false } (frameTxns s.cfg false))
  | reset : s.cfg.hasCounters = true → Effect s .resetErrorCounters { s with errCnt := 0#32, attCnt := 0#32 }
  | read : s.cfg.hasCounters = true →
      Effect s .readCounters { s with results := s.results ++ [(s.errCnt, s.attCnt)] }

/-- What a host command can do: it is refused, it is SETUP, or it has its effect on a configured block. -/
def HostCase (s : State) (i : Instr) (t : State) : Prop :=
  (i.present s.cfg = false ∧ t = refuse .variantAbsent s) ∨
  (i.present s.cfg = true ∧ i ≠ .setup ∧ s.configured = false ∧ t = refuse .notConfigured s) ∨
  (i = .setup ∧ s.configured = true ∧ t = refuse .alreadyConfigured s) ∨
  (i = .setup ∧ s.configured = false ∧
    t = State.sent (State.record (setupRegisters s) [.clkCfgOut, .dioCfgOut]) (setupTxns s.cfg)) ∨
  (i ≠ .setup ∧ s.configured = true ∧ Effect s i t)

/-- A command other than SETUP that runs under `whenRunnable`. -/
theorem hostCase_of_runnable (i : Instr) (t : State) (p : Bool) (body : State → State)
    (ht : whenRunnable p body s = t) (hp : i.present s.cfg = p) (hs : i ≠ .setup)
    (he : p = true → Effect s i (body s)) : HostCase s i t := by
  rcases whenRunnable_eq s p body with ⟨h1, h2⟩ | ⟨h1, h2, h3⟩ | ⟨h1, h2, h3⟩
  · exact .inl ⟨hp.trans h1, ht.symm.trans h2⟩
  · exact .inr (.inl ⟨hp.trans h1, hs, h2, ht.symm.trans h3⟩)
  · exact .inr (.inr (.inr (.inr ⟨hs, h2, (ht.symm.trans h3) ▸ he h1⟩)))

/-- Everything a host command can do (rule R91). -/
theorem exec_host_cases (i : Instr) (t : State) (hi : i.hostIssuable = true) (h : exec i s = .next t) :
    HostCase s i t := by
  have run := hostCase_of_runnable s i t
  cases i with
  | setup =>
    simp only [exec, execSetup, Host.Outcome.next.injEq] at h
    rcases Bool.eq_false_or_eq_true s.configured with hc | hc <;> rw [hc] at h
    · exact .inr (.inr (.inl ⟨rfl, hc, h.symm⟩))
    · exact .inr (.inr (.inr (.inl ⟨rfl, hc, h.symm.trans (setupBody_eq s)⟩)))
  | setBrightness raw =>
    refine run _ _ (Host.Outcome.next.inj h) rfl (by simp) fun _ => ?_
    rw [setBrightnessBody_eq]
    split
    · exact .brightnessOn raw ‹_›
    · exact .brightnessOff raw (by simpa using ‹¬s.dispOn = true›)
  | setLevel n =>
    refine run _ _ (Host.Outcome.next.inj h) rfl (by simp) fun _ => ?_
    rw [setLevelBody, storeLevel_eq]
    split
    · exact .levelOn n ‹_›
    · exact .levelOff n (by simpa using ‹¬s.dispOn = true›)
  | setLevelPercent p =>
    refine run _ _ (Host.Outcome.next.inj h) rfl (by simp) fun _ => ?_
    rw [setLevelPercentBody, storeLevel_eq]
    split
    · exact .percentOn p ‹_›
    · exact .percentOff p (by simpa using ‹¬s.dispOn = true›)
  | turnOn => exact run _ _ (Host.Outcome.next.inj h) rfl (by simp) fun _ => (turnOnBody_eq s).symm ▸ .on
  | turnOff => exact run _ _ (Host.Outcome.next.inj h) rfl (by simp) fun _ => (turnOffBody_eq s).symm ▸ .off
  | setBlinkOn =>
    exact run _ _ (Host.Outcome.next.inj h) rfl (by simp) fun hb => (setBlinkBody_eq s true).symm ▸ .blinkOn hb
  | setBlinkOff =>
    exact run _ _ (Host.Outcome.next.inj h) rfl (by simp) fun hb => (setBlinkBody_eq s false).symm ▸ .blinkOff hb
  | resetErrorCounters => exact run _ _ (Host.Outcome.next.inj h) rfl (by simp) .reset
  | readCounters => exact run _ _ (Host.Outcome.next.inj h) rfl (by simp) .read
  | uStart | uStop | uSendbit _ | uRaiseclk | uTxbyte _ | uAckphase => cases hi
  | tFixmode | tLeveldata _ | tPower _ | tAutomode | tFramedata _ | tLevelwrite _ | tFramewrite _ => cases hi

end Sys2Proof.Machine
end

