-- ==== Sys2Proof/Laws/Monitor.lean ====
section
/-!
SUPPORT. How the monitor of Safety.lean reads each part of a transaction's trace (40_bus_engine.md rules R69 to R74).
-/

namespace Sys2Proof.Machine

/-- The monitor after a trace, from any reading so far. -/
def Monitor.run (m : Monitor) (es : List Event) : Monitor := es.foldl Monitor.see m

theorem monitor_append (es fs : List Event) : monitor (es ++ fs) = (monitor es).run fs := List.foldl_append

theorem Monitor.run_append (m : Monitor) (es fs : List Event) : m.run (es ++ fs) = (m.run es).run fs :=
  List.foldl_append

/-- A falling clock. -/
theorem Monitor.see_clk_low (m : Monitor) : m.see (.clkW false) = { m with clk := .known false } := by
  unfold Monitor.see
  split <;> simp_all

/-- A rising clock takes the data level. -/
theorem Monitor.see_clk_rise (m : Monitor) (d : Bool) (h : m.clk = .known false) (hd : m.dio = .known d) :
    m.see (.clkW true) = { m with clk := .known true, bits := m.bits ++ [d] } := by
  unfold Monitor.see
  rw [h, hd]

/-- A wait is not seen. -/
theorem Monitor.see_delay (m : Monitor) (d : Nat) : m.see (.delay d) = m := rfl

/-- One data bit is read as that bit. -/
theorem Monitor.run_bit (m : Monitor) (c : Config) (b : Bool) : m.run (traceBit c b) =
    { m with clk := .known true, dio := .known b, bits := m.bits ++ [b] } := by
  have h : Monitor.see { m with clk := .known false } (.dioW b) =
      { m with clk := .known false, dio := .known b } := by simp [Monitor.see]
  simp only [Monitor.run, traceBit, List.foldl, Monitor.see_clk_low, waitQuarter, waitHalf, Monitor.see_delay]
  rw [h, Monitor.see_clk_rise _ b rfl rfl]

/-- A byte from its eight bits, bit 0 first. -/
theorem natOfBits_byte : ∀ v : Byte, BitVec.ofNat 8 (natOfBits [v.getLsbD 0, v.getLsbD 1, v.getLsbD 2, v.getLsbD 3,
    v.getLsbD 4, v.getLsbD 5, v.getLsbD 6, v.getLsbD 7]) = v := by decide

/-- Reads are not seen. -/
theorem Monitor.run_reads (m : Monitor) (rs : List Bool) : m.run (rs.map .dioR) = m := by
  induction rs with
  | nil => rfl
  | cons b bs ih => simpa [Monitor.run, Monitor.see] using ih

/-- The acknowledgment phase ends the byte, whatever it was answered. -/
theorem Monitor.run_ack (m : Monitor) (c : Config) (rs : List Bool) : m.run (traceAck c rs) =
    { m with
      clk := .known false, dio := .known (ackOf rs), bits := []
      bytes := m.bytes ++ [BitVec.ofNat 8 (natOfBits m.bits)] } := by
  simp only [traceAck, Monitor.run_append, Monitor.run_reads]
  simp only [Monitor.run, List.foldl, Monitor.see_clk_low, waitQuarter, Monitor.see_delay]
  cases ackOf rs <;> simp [Monitor.see]

/-- A byte is read as that byte. -/
theorem Monitor.run_byte (m : Monitor) (c : Config) (v : Byte) (rs : List Bool) (h : m.bits = []) :
    m.run (traceByte c v rs) =
      { m with clk := .known false, dio := .known (ackOf rs), bits := [], bytes := m.bytes ++ [v] } := by
  have hb : m.run (traceBits c v) = { m with
      clk := .known true, dio := .known (v.getLsbD 7)
      bits := [v.getLsbD 0, v.getLsbD 1, v.getLsbD 2, v.getLsbD 3, v.getLsbD 4, v.getLsbD 5, v.getLsbD 6,
        v.getLsbD 7] } := by
    simp [traceBits, Monitor.run_append, Monitor.run_bit, h]
  simp only [traceByte, Monitor.run_append, hb, Monitor.run_ack, natOfBits_byte]
  unfold traceDiag
  split <;> rfl

end Sys2Proof.Machine
end

