-- ==== Sys2Proof/Laws/PerInstr.lean ====
section
/-!
SUPPORT. Statements for all instructions, one lemma for each constructor. The family `TableRow`: the encoded instruction
has the fixed bits of its row in spec/opcode_table.json, and no bit outside the row's operand field.
-/

namespace Sys2Proof.Laws

/-- The `match` and `mask` of the instruction's row in spec/opcode_table.json. -/
def tableRow : Instr → CmdWord × CmdWord
  | .setup => (0x0100#16, 0xFFFF#16)
  | .setBrightness _ => (0x0200#16, 0xFF00#16)
  | .setLevel _ => (0x0300#16, 0xFF00#16)
  | .setLevelPercent _ => (0x0400#16, 0xFF00#16)
  | .turnOn => (0x0500#16, 0xFFFF#16)
  | .turnOff => (0x0600#16, 0xFFFF#16)
  | .setBlinkOn => (0x0700#16, 0xFFFF#16)
  | .setBlinkOff => (0x0800#16, 0xFFFF#16)
  | .resetErrorCounters => (0x0900#16, 0xFFFF#16)
  | .readCounters => (0x0A00#16, 0xFFFF#16)
  | .uStart => (0xF000#16, 0xFFFF#16)
  | .uStop => (0xF100#16, 0xFFFF#16)
  | .uSendbit _ => (0xF200#16, 0xFFFE#16)
  | .uRaiseclk => (0xF300#16, 0xFFFF#16)
  | .uTxbyte _ => (0xF400#16, 0xFF00#16)
  | .uAckphase => (0xF500#16, 0xFFFF#16)
  | .tFixmode => (0xF600#16, 0xFFFF#16)
  | .tLeveldata _ => (0xF700#16, 0xFFF8#16)
  | .tPower _ => (0xF800#16, 0xFFFE#16)
  | .tAutomode => (0xF900#16, 0xFFFF#16)
  | .tFramedata _ => (0xFA00#16, 0xFFFE#16)
  | .tLevelwrite _ => (0xFB00#16, 0xFFF8#16)
  | .tFramewrite _ => (0xFC00#16, 0xFFFE#16)

/-- The encoding of `i` matches its row. -/
def TableRow.Statement (i : Instr) : Prop := encode i &&& (tableRow i).2 = (tableRow i).1

theorem TableRow.setup : TableRow.Statement .setup := by
  unfold TableRow.Statement
  decide

theorem TableRow.setBrightness (raw : Byte) : TableRow.Statement (.setBrightness raw) := by
  revert raw
  unfold TableRow.Statement
  decide

theorem TableRow.setLevel (n : Byte) : TableRow.Statement (.setLevel n) := by
  revert n
  unfold TableRow.Statement
  decide

theorem TableRow.setLevelPercent (p : Byte) : TableRow.Statement (.setLevelPercent p) := by
  revert p
  unfold TableRow.Statement
  decide

theorem TableRow.turnOn : TableRow.Statement .turnOn := by
  unfold TableRow.Statement
  decide

theorem TableRow.turnOff : TableRow.Statement .turnOff := by
  unfold TableRow.Statement
  decide

theorem TableRow.setBlinkOn : TableRow.Statement .setBlinkOn := by
  unfold TableRow.Statement
  decide

theorem TableRow.setBlinkOff : TableRow.Statement .setBlinkOff := by
  unfold TableRow.Statement
  decide

theorem TableRow.resetErrorCounters : TableRow.Statement .resetErrorCounters := by
  unfold TableRow.Statement
  decide

theorem TableRow.readCounters : TableRow.Statement .readCounters := by
  unfold TableRow.Statement
  decide

theorem TableRow.uStart : TableRow.Statement .uStart := by
  unfold TableRow.Statement
  decide

theorem TableRow.uStop : TableRow.Statement .uStop := by
  unfold TableRow.Statement
  decide

theorem TableRow.uSendbit (b : Bool) : TableRow.Statement (.uSendbit b) := by
  revert b
  unfold TableRow.Statement
  decide

theorem TableRow.uRaiseclk : TableRow.Statement .uRaiseclk := by
  unfold TableRow.Statement
  decide

theorem TableRow.uTxbyte (v : Byte) : TableRow.Statement (.uTxbyte v) := by
  revert v
  unfold TableRow.Statement
  decide

theorem TableRow.uAckphase : TableRow.Statement .uAckphase := by
  unfold TableRow.Statement
  decide

theorem TableRow.tFixmode : TableRow.Statement .tFixmode := by
  unfold TableRow.Statement
  decide

theorem TableRow.tLeveldata (n : Bits3) : TableRow.Statement (.tLeveldata n) := by
  revert n
  unfold TableRow.Statement
  decide

theorem TableRow.tPower (on : Bool) : TableRow.Statement (.tPower on) := by
  revert on
  unfold TableRow.Statement
  decide

theorem TableRow.tAutomode : TableRow.Statement .tAutomode := by
  unfold TableRow.Statement
  decide

theorem TableRow.tFramedata (on : Bool) : TableRow.Statement (.tFramedata on) := by
  revert on
  unfold TableRow.Statement
  decide

theorem TableRow.tLevelwrite (n : Bits3) : TableRow.Statement (.tLevelwrite n) := by
  revert n
  unfold TableRow.Statement
  decide

theorem TableRow.tFramewrite (on : Bool) : TableRow.Statement (.tFramewrite on) := by
  revert on
  unfold TableRow.Statement
  decide

end Sys2Proof.Laws
end

