-- ==== Sys2Proof/Laws/Reads.lean ====
section
/-!
SUPPORT. The reads of an acknowledgment phase, as a list (40_bus_engine.md rules R74, R75 and R78).
-/

namespace Sys2Proof.Machine

/-- A first answer of 1 is read, and the sampling goes on. -/
theorem ackReads_true (n : Nat) (ans : Nat → Bool) (h : ans 0 = true) :
    ackReads (n + 1) ans = true :: ackReads n fun k => ans (k + 1) := by
  rw [ackReads, h, if_pos rfl]

/-- A first answer of 0 is the only read. -/
theorem ackReads_false (n : Nat) (ans : Nat → Bool) (h : ans 0 = false) : ackReads (n + 1) ans = [false] := by
  rw [ackReads, h, if_neg (by decide)]

/-- At most the bound is read. -/
theorem ackReads_length_le (n : Nat) (ans : Nat → Bool) : (ackReads n ans).length ≤ n := by
  induction n generalizing ans with
  | zero => exact Nat.le_refl 0
  | succ n ih =>
    cases h : ans 0 with
    | true => simpa [ackReads_true n ans h] using ih _
    | false => simp [ackReads_false n ans h]

/-- At least one read is made. -/
theorem ackReads_length_pos (n : Nat) (ans : Nat → Bool) (hn : 1 ≤ n) : 1 ≤ (ackReads n ans).length := by
  obtain ⟨m, rfl⟩ : ∃ m, n = m + 1 := ⟨n - 1, by omega⟩
  cases h : ans 0 with
  | true => simp [ackReads_true m ans h]
  | false => simp [ackReads_false m ans h]

/-- Each read is the oracle's answer. -/
theorem ackReads_getElem (n : Nat) (ans : Nat → Bool) (k : Nat) (hk : k < (ackReads n ans).length) :
    (ackReads n ans)[k] = ans k := by
  induction n generalizing ans k with
  | zero => simp [ackReads] at hk
  | succ n ih =>
    cases h : ans 0 with
    | true =>
      simp only [ackReads_true n ans h] at hk ⊢
      cases k with
      | zero => exact h.symm
      | succ k => simpa using ih (fun j => ans (j + 1)) k (by simpa using hk)
    | false =>
      simp only [ackReads_false n ans h, List.length_singleton] at hk ⊢
      obtain rfl : k = 0 := by omega
      exact h.symm

/-- Every read but the last is 1. -/
theorem ackReads_before_last (n : Nat) (ans : Nat → Bool) (k : Nat) (hk : k + 1 < (ackReads n ans).length) :
    ans k = true := by
  induction n generalizing ans k with
  | zero => simp [ackReads] at hk
  | succ n ih =>
    cases h : ans 0 with
    | true =>
      simp only [ackReads_true n ans h, List.length_cons] at hk
      cases k with
      | zero => exact h
      | succ k => exact ih (fun j => ans (j + 1)) k (by omega)
    | false => simp [ackReads_false n ans h] at hk

/-- The sampling ends on a 0 or at the bound. -/
theorem ackReads_ends (n : Nat) (ans : Nat → Bool) : false ∈ ackReads n ans ∨ (ackReads n ans).length = n := by
  induction n generalizing ans with
  | zero => exact .inr rfl
  | succ n ih =>
    cases h : ans 0 with
    | true =>
      rw [ackReads_true n ans h]
      exact (ih _).imp (List.mem_cons_of_mem _) (congrArg (· + 1))
    | false => exact .inl (by simp [ackReads_false n ans h])

/-- The byte is acknowledged when a read is 0 (rule R75). -/
theorem ackOf_eq_true (rs : List Bool) : ackOf rs = true ↔ false ∈ rs := by simp [ackOf]

/-- The byte is acknowledged when one of its possible reads is 0 (rule R75). -/
theorem ackOf_ackReads (n : Nat) (ans : Nat → Bool) :
    ackOf (ackReads n ans) = true ↔ ∃ k, k < n ∧ ans k = false := by
  rw [ackOf_eq_true]
  constructor
  · intro h
    obtain ⟨k, hk, he⟩ := List.getElem_of_mem h
    exact ⟨k, Nat.lt_of_lt_of_le hk (ackReads_length_le n ans), by rw [← ackReads_getElem n ans k hk, he]⟩
  · rintro ⟨k, hk, ha⟩
    refine (ackReads_ends n ans).elim id fun hl => ?_
    have hk' : k < (ackReads n ans).length := by omega
    exact (ackReads_getElem n ans k hk').trans ha ▸ List.getElem_mem hk'

end Sys2Proof.Machine
end

