-- ==== Sys2Proof/Laws/Sequencer.lean ====
section
/-!
SUPPORT. What each of the thirteen internal sequencer names does when it gives a next state, as one case each
(40_bus_engine.md rules R69 to R74, 41_chip_commands.md rules R83 to R89).
-/

namespace Sys2Proof.Machine

/-- The effect of an internal name, guards included. -/
inductive UopEffect (s : State) : Instr → State → Prop where
  | start : UopEffect s .uStart (s.drive (traceStart s.cfg) (.known true) s.dioDir (.known false))
  | stop : UopEffect s .uStop (s.drive (traceStop s.cfg) (.known true) s.dioDir (.known true))
  | sendbit (b : Bool) : UopEffect s (.uSendbit b)
      (s.drive [.clkW false, waitQuarter s.cfg, .dioW b, waitQuarter s.cfg] (.known false) s.dioDir (.known b))
  | raiseclk : UopEffect s .uRaiseclk (s.drive [.clkW true, waitHalf s.cfg] (.known true) s.dioDir s.dioLatch)
  | txbyte (v : Byte) : UopEffect s (.uTxbyte v) (s.sentByte v)
  | ackphase : UopEffect s .uAckphase ((s.afterReads (ackReads s.cfg.ackSamples s.answer).length).drive
      (traceAck s.cfg (ackReads s.cfg.ackSamples s.answer)) (.known false) .out
      (latchAfterAck s.cfg (ackReads s.cfg.ackSamples s.answer)))
  | fixmode : UopEffect s .tFixmode (s.sent [[s.cfg.cmdAddrFixed]])
  | leveldata (n : Bits3) : UopEffect s (.tLeveldata n) (s.sent [[s.cfg.addrLevel, pattern n]])
  | power (on : Bool) : UopEffect s (.tPower on) (s.sent (powerTxns s.cfg on s.bright))
  | automode : s.cfg.blinkSupported = true → UopEffect s .tAutomode (s.sent [[s.cfg.cmdAddrAuto]])
  | framedata (on : Bool) : s.cfg.blinkSupported = true → UopEffect s (.tFramedata on)
      (s.sent [[s.cfg.addrFrame, frameData s.cfg on, frameData s.cfg on, frameData s.cfg on]])
  | levelwrite (n : Bits3) : UopEffect s (.tLevelwrite n) (s.sent (levelTxns s.cfg n))
  | framewrite (on : Bool) : s.cfg.blinkSupported = true → UopEffect s (.tFramewrite on) (s.sent (frameTxns s.cfg on))

/-- A frame operation that gives a next state. -/
theorem whenBlink_next (op : State → State) (s t : State) (h : whenBlink op s = .next t) :
    s.cfg.blinkSupported = true ∧ op s = t := by
  unfold whenBlink at h
  split at h
  · exact ⟨‹_›, Host.Outcome.next.inj h⟩
  · cases h

/-- Everything an internal name that gives a next state can do. -/
theorem exec_uop_cases (i : Instr) (s t : State) (hi : i.hostIssuable = false) (h : exec i s = .next t) :
    UopEffect s i t := by
  cases i with
  | uStart => obtain rfl := Host.Outcome.next.inj h; rw [assertStart_eq]; exact .start
  | uStop => obtain rfl := Host.Outcome.next.inj h; rw [assertStop_eq]; exact .stop
  | uSendbit b => obtain rfl := Host.Outcome.next.inj h; rw [sendBit_eq]; exact .sendbit b
  | uRaiseclk => obtain rfl := Host.Outcome.next.inj h; rw [raiseClock_eq]; exact .raiseclk
  | uTxbyte v => obtain rfl := Host.Outcome.next.inj h; rw [transmitByte_eq]; exact .txbyte v
  | uAckphase => obtain rfl := Host.Outcome.next.inj h; rw [ackPhase_eq]; exact .ackphase
  | tFixmode => obtain rfl := Host.Outcome.next.inj h; rw [txnFixMode_eq]; exact .fixmode
  | tLeveldata n => obtain rfl := Host.Outcome.next.inj h; rw [txnLevelData_eq]; exact .leveldata n
  | tPower on => obtain rfl := Host.Outcome.next.inj h; rw [txnPower_eq]; exact .power on
  | tLevelwrite n => obtain rfl := Host.Outcome.next.inj h; rw [levelWrite_eq]; exact .levelwrite n
  | tAutomode =>
    obtain ⟨hb, rfl⟩ := whenBlink_next _ s t h
    rw [txnAutoMode_eq]; exact .automode hb
  | tFramedata on =>
    obtain ⟨hb, rfl⟩ := whenBlink_next _ s t h
    rw [txnFrameData_eq]; exact .framedata on hb
  | tFramewrite on =>
    obtain ⟨hb, rfl⟩ := whenBlink_next _ s t h
    rw [frameWrite_eq]; exact .framewrite on hb
  | setup | setBrightness _ | setLevel _ | setLevelPercent _ | turnOn | turnOff => cases hi
  | setBlinkOn | setBlinkOff | resetErrorCounters | readCounters => cases hi

end Sys2Proof.Machine
end

