-- ==== Sys2Proof/Laws/Step.lean ====
section
/-!
SUPPORT. What a step can be (42_display_commands.md rule R91), and the model's own fields, which no meaning touches.
-/

namespace Sys2Proof.Machine

/-- A host command always gives a next state: no condition stops the block (60_exceptions.md rule R110). -/
theorem exec_host_next (i : Instr) (s : State) (h : i.hostIssuable = true) : ∃ t, exec i s = .next t := by
  cases i <;> first | exact ⟨_, rfl⟩ | cases h

/-- No meaning writes the configuration, the command port or the sequencer slot. -/
theorem exec_kept (i : Instr) (s t : State) (h : exec i s = .next t) :
    t.cfg = s.cfg ∧ t.program = s.program ∧ t.position = s.position ∧ t.seqSlot = s.seqSlot := by
  cases i <;>
    simp only [exec, execSetup, execSetBrightness, execSetLevel, execSetLevelPercent, execTurnOn, execTurnOff,
      execSetBlinkOn, execSetBlinkOff, execResetErrorCounters, execReadCounters, execUStart, execUStop, execUSendbit,
      execURaiseclk, execUTxbyte, execUAckphase, execTFixmode, execTLeveldata, execTPower, execTAutomode, execTFramedata,
      execTLevelwrite, execTFramewrite, whenRunnable, whenBlink, setupBody_eq, setupRegisters, setBrightnessBody_eq,
      setLevelBody, setLevelPercentBody, storeLevel_eq, turnOnBody_eq, turnOffBody_eq, setBlinkBody_eq,
      resetErrorCountersBody, readCountersBody, levelWrite_eq, txnPower_eq, frameWrite_eq, txnFixMode_eq,
      txnLevelData_eq, txnAutoMode_eq, txnFrameData_eq, transmitByte_eq, ackPhase_eq, assertStart_eq, assertStop_eq,
      sendBit_eq, raiseClock_eq, State.sentByte] at h <;>
    (repeat' split at h) <;> simp only [Host.Outcome.next.injEq, reduceCtorEq] at h <;> subst h <;> simp

/-- Everything a step that gives a next state can be: an internal name, an idle step, a refused word, or a decoded
command. -/
theorem step_cases (s t : State) (h : step s = .next t) :
    (∃ w i, s.seqSlot = some w ∧ decodeUop w = some i ∧ exec i (clearSlot s) = .next t) ∨
    (s.seqSlot = none ∧ s.program[s.position]? = none ∧ t = s) ∨
    (∃ w r, s.seqSlot = none ∧ s.program[s.position]? = some w ∧ decode s.cfg w = .error r ∧
      t = advance (refuse r s)) ∨
    (∃ w i u, s.seqSlot = none ∧ s.program[s.position]? = some w ∧ decode s.cfg w = .ok i ∧ exec i s = .next u ∧
      t = advance u) := by
  unfold step at h
  split at h
  · rename_i w hw
    unfold stepUop at h
    split at h
    · exact .inl ⟨w, _, hw, ‹_›, h⟩
    · cases h
  · rename_i hs
    split at h
    · rename_i w hw
      unfold stepCommand at h
      split at h
      · rename_i i hd
        obtain ⟨u, hu⟩ := exec_host_next i s (decode_ok _ _ _ hd).1
        rw [hu] at h
        cases h
        exact .inr (.inr (.inr ⟨w, i, u, hs, hw, hd, hu, rfl⟩))
      · cases h
        exact .inr (.inr (.inl ⟨w, _, hs, hw, ‹_›, rfl⟩))
    · cases h
      exact .inr (.inl ⟨hs, ‹_›, rfl⟩)

end Sys2Proof.Machine
end

