-- ==== Sys2Proof/Laws/Totals.lean ====
section
/-!
SUPPORT. Sums and checks over a trace, for each part of a transaction's trace: its delays and its reads
(70_reset_and_hazards.md rule R142), its data changes at a high clock (40_bus_engine.md rule R80), and its use of the
pins (20_memory.md rules R42 and R43).
-/

namespace Sys2Proof.Machine

/-! Delays and reads. -/

theorem delayTotal_append (es fs : List Event) : delayTotal (es ++ fs) = delayTotal es + delayTotal fs := by
  induction es with
  | nil => simp [delayTotal]
  | cons e es ih => cases e <;> simp [delayTotal, ih, Nat.add_assoc]

theorem readTotal_append (es fs : List Event) : readTotal (es ++ fs) = readTotal es + readTotal fs :=
  List.countP_append

theorem delayTotal_reads (rs : List Bool) : delayTotal (rs.map .dioR) = 0 := by
  induction rs with
  | nil => rfl
  | cons b bs ih => simpa [delayTotal] using ih

theorem readTotal_reads (rs : List Bool) : readTotal (rs.map .dioR) = rs.length := by
  induction rs with
  | nil => rfl
  | cons b bs ih => simp [readTotal] at ih ⊢

/-- The delays and reads of an acknowledgment phase. -/
theorem totals_ack (c : Config) (rs : List Bool) :
    delayTotal (traceAck c rs) = 4 * c.qUs ∧ readTotal (traceAck c rs) = rs.length := by
  simp only [traceAck, delayTotal_append, readTotal_append, delayTotal_reads, readTotal_reads]
  cases ackOf rs <;> simp [delayTotal, readTotal, waitQuarter] <;> omega

/-- The delays and reads of a byte. -/
theorem totals_byte (c : Config) (v : Byte) (rs : List Bool) :
    delayTotal (traceByte c v rs) = 8 * c.hUs + 20 * c.qUs ∧ readTotal (traceByte c v rs) = rs.length := by
  have hb : ∀ b, delayTotal (traceBit c b) = c.hUs + 2 * c.qUs := fun b => by
    simp [traceBit, delayTotal, waitQuarter, waitHalf]
    omega
  have h1 : delayTotal (traceBits c v) = 8 * c.hUs + 16 * c.qUs := by
    simp only [traceBits, List.flatMap_cons, List.flatMap_nil, delayTotal_append, hb, delayTotal]
    omega
  have h2 : readTotal (traceBits c v) = 0 := rfl
  have h3 : delayTotal (traceDiag c v rs) = 0 ∧ readTotal (traceDiag c v rs) = 0 := by
    unfold traceDiag
    split <;> exact ⟨rfl, rfl⟩
  rw [traceByte, delayTotal_append, delayTotal_append, readTotal_append, readTotal_append, h1, h2, h3.1, h3.2,
    (totals_ack c rs).1, (totals_ack c rs).2]
  omega

/-- The delays and reads of the bytes of a transaction. -/
theorem totals_bytes (c : Config) (bs : List Byte) (ans : Nat → Bool) :
    delayTotal (traceBytes c bs ans) = bs.length * (8 * c.hUs + 20 * c.qUs) ∧
    readTotal (traceBytes c bs ans) = readCount c bs.length ans := by
  induction bs generalizing ans with
  | nil => simp [traceBytes_nil, delayTotal, readTotal]
  | cons v vs ih =>
    rw [traceBytes_cons, delayTotal_append, readTotal_append, (ih _).1, (ih _).2, (totals_byte c v _).1,
      (totals_byte c v _).2, List.length_cons, readCount_succ]
    exact ⟨by rw [Nat.add_mul, Nat.one_mul]; exact Nat.add_comm _ _, rfl⟩

/-- The delays and reads of a transaction. -/
theorem totals_txn (c : Config) (bs : List Byte) (ans : Nat → Bool) :
    delayTotal (traceTxn c bs ans) = 2 * (c.hUs + 2 * c.qUs) + bs.length * (8 * c.hUs + 20 * c.qUs) ∧
    readTotal (traceTxn c bs ans) = readCount c bs.length ans := by
  have h1 : delayTotal (traceStart c) = c.hUs + 2 * c.qUs := by
    simp [traceStart, delayTotal, waitQuarter, waitHalf]
    omega
  have h2 : delayTotal (traceStop c) = c.hUs + 2 * c.qUs := by
    simp [traceStop, delayTotal, waitQuarter, waitHalf]
    omega
  have h3 : readTotal (traceStart c) = 0 := rfl
  have h4 : readTotal (traceStop c) = 0 := rfl
  simp only [traceTxn, delayTotal_append, readTotal_append, totals_bytes, h1, h2, h3, h4]
  exact ⟨by omega, by omega⟩

/-- The delays and reads of transactions in a row. -/
theorem totals_txns (c : Config) (ts : List (List Byte)) (ans : Nat → Bool) :
    delayTotal (traceTxns c ts ans) =
      ts.length * (2 * (c.hUs + 2 * c.qUs)) + ts.flatten.length * (8 * c.hUs + 20 * c.qUs) ∧
    readTotal (traceTxns c ts ans) = readCount c ts.flatten.length ans := by
  induction ts generalizing ans with
  | nil => simp [traceTxns, delayTotal, readTotal]
  | cons t ts ih =>
    rw [traceTxns, delayTotal_append, readTotal_append, (ih _).1, (ih _).2, (totals_txn c t _).1,
      (totals_txn c t _).2]
    simp only [List.length_cons, List.flatten_cons, List.length_append, readCount_add, Nat.add_mul, Nat.one_mul]
    refine ⟨?_, trivial⟩
    generalize ts.length * _ = x
    generalize ts.flatten.length * _ = y
    generalize t.length * _ = z
    omega

/-- The reads of several bytes are bounded (rule R144). -/
theorem readCount_le (c : Config) (m : Nat) (ans : Nat → Bool) : readCount c m ans ≤ c.ackSamples * m := by
  induction m generalizing ans with
  | zero => simp
  | succ m ih =>
    rw [readCount_succ, Nat.mul_succ]
    have h1 := ih (laterAnswers (ackReads c.ackSamples ans).length ans)
    have h2 := ackReads_length_le c.ackSamples ans
    omega

/-! Data changes at a high clock. -/

/-- CLK_LVL after the events of a trace. -/
def clkAfter : Level → List Event → Level
  | l, [] => l
  | _, .clkW b :: es => clkAfter (.known b) es
  | l, .clkCfgOut :: es | l, .dioCfgOut :: es | l, .dioCfgIn :: es | l, .dioW _ :: es => clkAfter l es
  | l, .dioR _ :: es | l, .delay _ :: es | l, .diagNack _ :: es => clkAfter l es

theorem dioEventsAtHigh_append (l : Level) (es fs : List Event) :
    dioEventsAtHigh l (es ++ fs) = dioEventsAtHigh l es ++ dioEventsAtHigh (clkAfter l es) fs := by
  induction es generalizing l with
  | nil => rfl
  | cons e es ih => cases e <;> simp [dioEventsAtHigh, clkAfter, ih] <;> split <;> simp_all

theorem clkAfter_append (l : Level) (es fs : List Event) :
    clkAfter l (es ++ fs) = clkAfter (clkAfter l es) fs := by
  induction es generalizing l with
  | nil => rfl
  | cons e es ih => cases e <;> simp [clkAfter, ih]

/-- Reads change nothing. -/
theorem high_reads (l : Level) (rs : List Bool) :
    dioEventsAtHigh l (rs.map .dioR) = [] ∧ clkAfter l (rs.map .dioR) = l := by
  induction rs with
  | nil => exact ⟨rfl, rfl⟩
  | cons b bs ih => simp [dioEventsAtHigh, clkAfter, Event.isDio, ih]

/-- No data bit is written at a high clock. -/
theorem high_bits (l : Level) (c : Config) (v : Byte) :
    dioEventsAtHigh l (traceBits c v) = [] ∧ clkAfter l (traceBits c v) = .known true := by
  simp [traceBits, traceBit, dioEventsAtHigh, clkAfter, waitQuarter, waitHalf, Event.isDio]

/-- A byte's data changes at a high clock are those of its acknowledgment phase. -/
theorem high_byte (l : Level) (c : Config) (v : Byte) (rs : List Bool) :
    dioEventsAtHigh l (traceByte c v rs) = (if ackOf rs then [.dioCfgOut] else [.dioCfgOut, .dioW false]) ∧
    clkAfter l (traceByte c v rs) = .known false := by
  simp only [traceByte, traceAck, traceDiag, dioEventsAtHigh_append, clkAfter_append, high_bits, high_reads]
  cases ackOf rs <;> cases c.logEnabled <;> simp [dioEventsAtHigh, clkAfter, waitQuarter, Event.isDio]

/-! The use of the pins. -/

/-- The directions after the events of a trace. -/
def dirsAfter : ClkDir × DioDir → List Event → ClkDir × DioDir
  | d, [] => d
  | d, .clkCfgOut :: es => dirsAfter (.out, d.2) es
  | d, .dioCfgOut :: es => dirsAfter (d.1, .out) es
  | d, .dioCfgIn :: es => dirsAfter (d.1, .inp) es
  | d, .clkW _ :: es | d, .dioW _ :: es | d, .dioR _ :: es => dirsAfter d es
  | d, .delay _ :: es | d, .diagNack _ :: es => dirsAfter d es

theorem pinUseOk_append (c : ClkDir) (d : DioDir) (es fs : List Event) : pinUseOk c d (es ++ fs) =
    (pinUseOk c d es && pinUseOk (dirsAfter (c, d) es).1 (dirsAfter (c, d) es).2 fs) := by
  induction es generalizing c d with
  | nil => simp [pinUseOk, dirsAfter]
  | cons e es ih => cases e <;> simp [pinUseOk, dirsAfter, ih, Bool.and_assoc]

theorem dirsAfter_append (d : ClkDir × DioDir) (es fs : List Event) :
    dirsAfter d (es ++ fs) = dirsAfter (dirsAfter d es) fs := by
  induction es generalizing d with
  | nil => rfl
  | cons e es ih => cases e <;> simp [dirsAfter, ih]

/-- DIO is read as an input. -/
theorem pins_reads (c : ClkDir) (rs : List Bool) :
    pinUseOk c .inp (rs.map .dioR) = true ∧ dirsAfter (c, .inp) (rs.map .dioR) = (c, .inp) := by
  induction rs with
  | nil => exact ⟨rfl, rfl⟩
  | cons b bs ih => simp [pinUseOk, dirsAfter, ih]

/-- A byte uses the pins in their directions, and leaves them outputs. -/
theorem pins_byte (c : Config) (v : Byte) (rs : List Bool) :
    pinUseOk .out .out (traceByte c v rs) = true ∧ dirsAfter (.out, .out) (traceByte c v rs) = (.out, .out) := by
  have h1 : pinUseOk .out .out (traceBits c v) = true ∧ dirsAfter (.out, .out) (traceBits c v) = (.out, .out) :=
    ⟨rfl, rfl⟩
  have h2 : pinUseOk .out .out (traceAck c rs) = true ∧ dirsAfter (.out, .out) (traceAck c rs) = (.out, .out) := by
    have e : dirsAfter (.out, .out) [.clkW false, waitQuarter c, .dioW true, waitQuarter c, .dioCfgIn, .clkW true,
      waitQuarter c] = (.out, .inp) := rfl
    unfold traceAck
    simp only [pinUseOk_append, dirsAfter_append, e, pins_reads]
    cases ackOf rs <;> exact ⟨rfl, rfl⟩
  have h3 : pinUseOk .out .out (traceDiag c v rs) = true ∧
      dirsAfter (.out, .out) (traceDiag c v rs) = (.out, .out) := by
    unfold traceDiag
    split <;> exact ⟨rfl, rfl⟩
  simp [traceByte, pinUseOk_append, dirsAfter_append, h1, h2, h3]

end Sys2Proof.Machine
end

