-- ==== Sys2Proof/Tests/Slice0.lean ====
section
/-!
SUPPORT. The model's own tests. Expected values are those of 95_test_vectors.md (the vector is named at each test) or of
the table named there. Then, for each obligation that has hypotheses, a witness: concrete states and operands that meet
them, one for each clause.
-/

namespace Sys2Proof.Tests

open Sys2Proof.Machine

/-! Small states. -/

/-- REF at the illustrative cycle time 100 of 95_test_vectors.md. -/
def cfg : Config := Config.refAt 100

def cfgNoBlink : Config := { cfg with blinkSupported := false }
def cfgNoCounters : Config := { cfg with hasCounters := false }
def cfgHardened : Config := { cfg with brightnessResendsLevel := true }
def cfgThree : Config := { cfg with ackSamples := 3 }
def cfgOne : Config := { cfg with ackSamples := 1 }
def cfgSmall : Config := { cfg with maxLevel := 4#3 }

/-- Twenty reads that all answer 0. -/
def acks : List Bool := List.replicate 20 false

/-- Reset under `c`, with the host's program `ws` and the coming answers `ans`. -/
def fresh (c : Config) (ans : List Bool) (ws : List CmdWord) : State :=
  { State.resetWith c with dioAnswers := ans, program := ws }

/-- The start state of V7, with the program `ws`. -/
def started (c : Config) (ans : List Bool) (ws : List CmdWord) : State :=
  { fresh c ans ws with
    configured := true, level := 3#3, clkDir := .out, dioDir := .out, clkLvl := .known true, dioLatch := .known true }

/-- The start state of V8. -/
def startedOff (c : Config) (ans : List Bool) (ws : List CmdWord) : State :=
  { started c ans ws with dispOn := false }

/-- The state a step leads to. -/
def reached : Host.Outcome State Fault Refusal → Option State
  | .next t => some t
  | .fault _ => none
  | .refused _ => none

/-- What a test looks at, of the state a step leads to. -/
def seen {α : Type} (s : State) (view : State → α) : Option α := (reached (step s)).map view

/-! The trace tokens of 00_scope.md rule R10 at T_US = 100. -/

def tokS : List Event := [.dioW true, .delay 50, .clkW true, .delay 25, .dioW false, .delay 25]
def tokP : List Event := [.dioW false, .delay 50, .clkW true, .delay 25, .dioW true, .delay 25]

/-- The bit cycles of a byte given by its bits, bit 0 first. -/
def tokBits (bits : List Bool) : List Event :=
  bits.flatMap fun b => [.clkW false, .delay 25, .dioW b, .delay 25, .clkW true, .delay 50]

/-- `C0 Wq D1 Wq Di C1 Wq R0 Do Wq C0`. -/
def tokAck : List Event :=
  [.clkW false, .delay 25, .dioW true, .delay 25, .dioCfgIn, .clkW true, .delay 25, .dioR false, .dioCfgOut, .delay 25,
   .clkW false]

/-- A byte acknowledged on its first read. -/
def tokB (bits : List Bool) : List Event := tokBits bits ++ tokAck

/-! WellFormed: an ill-formed instruction for each check. -/

theorem test_wf_blink_on_absent : Instr.wellFormed cfgNoBlink .setBlinkOn = false := by decide
theorem test_wf_blink_off_absent : Instr.wellFormed cfgNoBlink .setBlinkOff = false := by decide
theorem test_wf_counter_reset_absent : Instr.wellFormed cfgNoCounters .resetErrorCounters = false := by decide
theorem test_wf_counter_read_absent : Instr.wellFormed cfgNoCounters .readCounters = false := by decide
theorem test_wf_frame_absent : Instr.wellFormed cfgNoBlink (.tFramewrite true) = false := by decide
theorem test_wf_level_too_high : Instr.wellFormed cfgSmall (.tLeveldata 5#3) = false := by decide
theorem test_wf_levelwrite_too_high : Instr.wellFormed cfgSmall (.tLevelwrite 7#3) = false := by decide
theorem test_wf_level_highest : Instr.wellFormed cfgSmall (.tLeveldata 4#3) = true := by decide
theorem test_wf_ref_has_all : Instr.wellFormed cfg .setBlinkOn = true ∧ Instr.wellFormed cfg .readCounters = true := by
  decide
theorem test_uop_not_host_issuable : Instr.hostIssuable (.uTxbyte 0#8) = false := by decide

/-! Decoding: the word of each constructor, bit by bit from the tables of 30_encoding.md rules R49 and R58. -/

theorem test_decode_setup : decode cfg 0b0000000100000000#16 = .ok .setup := by decide
theorem test_decode_setBrightness : decode cfg 0b0000001011111111#16 = .ok (.setBrightness 255#8) := by decide
theorem test_decode_setLevel : decode cfg 0b0000001100001100#16 = .ok (.setLevel 12#8) := by decide
theorem test_decode_setLevelPercent : decode cfg 0b0000010000110010#16 = .ok (.setLevelPercent 50#8) := by decide
theorem test_decode_turnOn : decode cfg 0b0000010100000000#16 = .ok .turnOn := by decide
theorem test_decode_turnOff : decode cfg 0b0000011000000000#16 = .ok .turnOff := by decide
theorem test_decode_setBlinkOn : decode cfg 0b0000011100000000#16 = .ok .setBlinkOn := by decide
theorem test_decode_setBlinkOff : decode cfg 0b0000100000000000#16 = .ok .setBlinkOff := by decide
theorem test_decode_resetErrorCounters : decode cfg 0b0000100100000000#16 = .ok .resetErrorCounters := by decide
theorem test_decode_readCounters : decode cfg 0b0000101000000000#16 = .ok .readCounters := by decide
theorem test_decode_uStart : decodeUop 0b1111000000000000#16 = some .uStart := by decide
theorem test_decode_uStop : decodeUop 0b1111000100000000#16 = some .uStop := by decide
theorem test_decode_uSendbit : decodeUop 0b1111001000000001#16 = some (.uSendbit true) := by decide
theorem test_decode_uRaiseclk : decodeUop 0b1111001100000000#16 = some .uRaiseclk := by decide
theorem test_decode_uTxbyte : decodeUop 0b1111010010100101#16 = some (.uTxbyte 0xA5#8) := by decide
theorem test_decode_uAckphase : decodeUop 0b1111010100000000#16 = some .uAckphase := by decide
theorem test_decode_tFixmode : decodeUop 0b1111011000000000#16 = some .tFixmode := by decide
theorem test_decode_tLeveldata : decodeUop 0b1111011100000110#16 = some (.tLeveldata 6#3) := by decide
theorem test_decode_tPower : decodeUop 0b1111100000000000#16 = some (.tPower false) := by decide
theorem test_decode_tAutomode : decodeUop 0b1111100100000000#16 = some .tAutomode := by decide
theorem test_decode_tFramedata : decodeUop 0b1111101000000001#16 = some (.tFramedata true) := by decide
theorem test_decode_tLevelwrite : decodeUop 0b1111101100000011#16 = some (.tLevelwrite 3#3) := by decide
theorem test_decode_tFramewrite : decodeUop 0b1111110000000001#16 = some (.tFramewrite true) := by decide

/-- The sequencer's decoder refuses argument bits that are not the operand's (rule R58). -/
theorem test_uop_stray_bits : decodeUop 0xF001#16 = none ∧ decodeUop 0xF202#16 = none ∧ decodeUop 0xF708#16 = none ∧
    decodeUop 0xFD00#16 = none := by decide

/-- V1, the refused words. -/
theorem test_v1_refused : decode cfg 0x0501#16 = .error .reservedOperand ∧
    decode cfg 0x0680#16 = .error .reservedOperand ∧ decode cfg 0x0A01#16 = .error .reservedOperand ∧
    decode cfg 0x0000#16 = .error .illegalOpcode ∧ decode cfg 0x0B00#16 = .error .illegalOpcode ∧
    decode cfg 0xF400#16 = .error .illegalOpcode ∧ decode cfg 0xFFFF#16 = .error .illegalOpcode := by decide

/-- V2, the refusals that the decoder makes. -/
theorem test_v2_decoder : decode cfgNoBlink 0x0701#16 = .error .variantAbsent ∧
    decode cfg 0x0701#16 = .error .reservedOperand ∧ decode cfg 0x0101#16 = .error .reservedOperand ∧
    decode cfgNoCounters 0x0A00#16 = .error .variantAbsent ∧ decode cfgNoCounters 0x0C00#16 = .error .illegalOpcode := by
  decide

/-- V2, the last row: a command before SETUP is refused, changes only the mark and emits nothing. -/
theorem test_v2_not_configured :
    seen (fresh cfg acks [0x0300#16]) (fun t => (t.refused, t.refuseReason, t.events, t.position, t.level)) =
      some (true, some .notConfigured, [], 1, 0#3) := by decide +kernel

/-- P4, line 3: a second SETUP is refused, and the first reason stands. -/
theorem test_p4_second_setup :
    seen { started cfg acks [0x0100#16] with refused := true, refuseReason := some .notConfigured }
      (fun t => (t.refused, t.refuseReason, t.events, t.level)) =
      some (true, some .notConfigured, [], 3#3) := by decide +kernel

/-- The table words as the host lays them out: both decoders are reached. -/
theorem test_table_words : decodeTableWord 16 0x0300 = some (.setLevel 0#8) ∧
    decodeTableWord 16 0xFC00 = some (.tFramewrite false) ∧ decodeTableWord 16 0x0B00 = none := by decide

/-- A table word runs as the first instruction after reset: a command word, and an internal name. -/
theorem test_fetch_word :
    ((reached (step (State.reset.withFetchWord 16 0x0500))).map fun t => (t.position, t.refuseReason)) =
      some (1, some .notConfigured) ∧
    ((reached (step (State.reset.withFetchWord 16 0xF300))).map fun t => (t.position, t.clkLvl, t.seqSlot)) =
      some (0, .known true, none) := by decide +kernel

/-! The assembler (30_encoding.md rules R60 to R62). -/

theorem test_asm_symbol_only_for_brightness : assembleLine "SET_LEVEL TYPICAL".toList = .error .badOperand := by decide
theorem test_asm_range : assembleLine "SET_LEVEL 256".toList = .error .operandOutOfRange := by decide
theorem test_asm_no_operand : assembleLine "TURN_ON 0".toList = .error .unexpectedOperand := by decide
theorem test_asm_hex_and_comment : assemble ["; a comment".toList, "".toList, "SET_LEVEL 0x0C".toList] =
    .ok [0x030C#16] := by decide
theorem test_asm_pseudo : assembleLine "SET_BLINK 2".toList = .ok (some 0x0700#16) := by decide
/-- Rule R60: operand 0 when absent. -/
theorem test_asm_operand_absent : assembleLine "SET_LEVEL".toList = .ok (some 0x0300#16) := by decide
/-- Rule R61 writes the pseudo-instruction with its `b` only (notes/assumptions/21.md). -/
theorem test_asm_pseudo_operand_absent : assembleLine "SET_BLINK".toList = .error .missingOperand := by decide

/-! The host commands, one step each. -/

/-- P1, line 1: SETUP. -/
theorem test_setup_trace : seen (fresh cfg acks [0x0100#16]) State.trace = some
    ([.clkCfgOut, .dioCfgOut] ++
     tokS ++ tokB [false, false, true, false, false, false, true, false] ++ tokP ++
     tokS ++ tokB [false, false, false, false, false, false, true, true] ++
       tokB [false, false, false, false, false, false, false, false] ++ tokP ++
     tokS ++ tokB [false, true, false, true, false, false, false, true] ++ tokP) := by decide +kernel

/-- P1, line 1: what SETUP leaves, from a state whose display registers hold other values. -/
theorem test_setup_state : seen { fresh cfg acks [0x0100#16] with level := 5#3, dispOn := false, blinkOn := true }
    (fun t => (t.events.length, t.level, t.dispOn, t.blinkOn, t.attCnt, t.clkLvl)) =
    some (274, 0#3, true, false, 4#32, .known true) := by decide +kernel

/-- V7: SET_BRIGHTNESS 1 sends 0x88. -/
theorem test_setBrightness : seen (started cfg acks [0x0201#16]) (fun t => (t.trace, t.bright, t.attCnt)) = some
    (tokS ++ tokB [false, false, false, true, false, false, false, true] ++ tokP, .darkest, 1#32) := by decide +kernel

/-- V7: SET_BRIGHTNESS 2 in the hardened variant. -/
theorem test_setBrightness_hardened : seen (started cfgHardened acks [0x0202#16]) (fun t =>
    (t.events.length, delayTotal t.events, t.attCnt, sentTxns t.trace)) =
    some (272, 38 * 50 + 92 * 25, 4#32, [[0x44#8], [0xC0#8, 0x07#8], [0x8A#8]]) := by decide +kernel

/-- V6 at the boundary: 8 is clamped to 7. -/
theorem test_setLevel_clamps : seen (started cfg acks [0x0308#16]) (fun t =>
    (t.level, t.events.length, delayTotal t.events, sentTxns t.trace)) =
    some (7#3, 201, 28 * 50 + 68 * 25, [[0x44#8], [0xC0#8, 0x7F#8]]) := by decide +kernel

/-- V8: SET_LEVEL 6 with the display off. -/
theorem test_setLevel_off : seen (startedOff cfg acks [0x0306#16]) (fun t => (t.level, t.events)) =
    some (6#3, []) := by decide +kernel

/-- E11: SET_LEVEL_PERCENT 50 sends 0x0F. -/
theorem test_setLevelPercent : seen (started cfg acks [0x0432#16]) (fun t => (t.level, sentTxns t.trace)) =
    some (4#3, [[0x44#8], [0xC0#8, 0x0F#8]]) := by decide +kernel

/-- E7: 150 behaves as 100. -/
theorem test_setLevelPercent_clamps : seen (started cfg acks [0x0496#16]) (fun t => (t.level, sentTxns t.trace)) =
    some (7#3, [[0x44#8], [0xC0#8, 0x7F#8]]) := by decide +kernel

/-- V8: TURN_ON sends level before power. -/
theorem test_turnOn : seen (startedOff cfg acks [0x0500#16]) (fun t => (t.dispOn, t.events.length, sentTxns t.trace)) =
    some (true, 272, [[0x44#8], [0xC0#8, 0x07#8], [0x8A#8]]) := by decide +kernel

/-- V8: TURN_OFF sends again although already off. -/
theorem test_turnOff : seen (startedOff cfg acks [0x0600#16]) (fun t => (t.dispOn, t.events.length, sentTxns t.trace)) =
    some (false, 71, [[0x82#8]]) := by decide +kernel

/-- V8: SET_BLINK_ON is sent although the display is off. -/
theorem test_setBlinkOn : seen (startedOff cfg acks [0x0700#16]) (fun t => (t.blinkOn, t.events.length, sentTxns t.trace)) =
    some (true, 319, [[0x40#8], [0xC1#8, 0x40#8, 0x40#8, 0x40#8]]) := by decide +kernel

/-- V7: SET_BLINK_OFF. -/
theorem test_setBlinkOff : seen (started cfg acks [0x0800#16]) (fun t => (t.blinkOn, delayTotal t.events, sentTxns t.trace)) =
    some (false, 44 * 50 + 108 * 25, [[0x40#8], [0xC1#8, 0#8, 0#8, 0#8]]) := by decide +kernel

/-- P3, line 4: both counters are cleared, with no event. -/
theorem test_resetErrorCounters : seen { started cfg acks [0x0900#16] with errCnt := 5#32, attCnt := 9#32 }
    (fun t => (t.errCnt, t.attCnt, t.events)) = some (0#32, 0#32, []) := by decide +kernel

/-- P3, line 3: the pair, errors first. -/
theorem test_readCounters : seen { started cfg acks [0x0A00#16] with errCnt := 5#32, attCnt := 9#32 }
    (fun t => (t.results, t.errCnt, t.attCnt, t.events)) = some ([(5#32, 9#32)], 5#32, 9#32, []) := by decide +kernel

/-! The internal names, one step each. -/

/-- A state with an internal word in the slot. -/
def uop (c : Config) (ans : List Bool) (w : CmdWord) : State := { started c ans [] with seqSlot := some w }

/-- V9. -/
theorem test_uStart : seen (uop cfg [] 0xF000#16) (fun t => (t.trace, t.clkLvl, t.dioLatch)) =
    some (tokS, .known true, .known false) := by decide +kernel

/-- V9. -/
theorem test_uStop : seen (uop cfg [] 0xF100#16) (fun t => (t.trace, t.clkLvl, t.dioLatch)) =
    some (tokP, .known true, .known true) := by decide +kernel

/-- The example of 40_bus_engine.md rule R71. -/
theorem test_uSendbit : seen (uop cfg [] 0xF201#16) (fun t => (t.trace, t.clkLvl)) =
    some ([.clkW false, .delay 25, .dioW true, .delay 25], .known false) := by decide +kernel

/-- The example of 40_bus_engine.md rule R72. -/
theorem test_uRaiseclk : seen (uop cfg [] 0xF300#16) State.trace = some [.clkW true, .delay 50] := by decide +kernel

/-- V10: the byte 0xA5, least significant bit first. -/
theorem test_uTxbyte : seen (uop cfg acks 0xF4A5#16) (fun t => (t.trace, t.attCnt, t.dioLatch, t.dioDir)) = some
    (tokBits [true, false, true, false, false, true, false, true] ++ tokAck, 1#32, .known true, .out) := by
  decide +kernel

/-- V13: both counters wrap on a NACKed byte. -/
theorem test_uTxbyte_wrap :
    seen { uop cfgOne [true] 0xF400#16 with errCnt := 0xFFFFFFFF#32, attCnt := 0xFFFFFFFF#32 }
      (fun t => (t.errCnt, t.attCnt, t.events.length)) = some (0#32, 0#32, 61) := by decide +kernel

/-- V12, the acknowledgment phase of the first row, with no byte before it. -/
theorem test_uAckphase_nack : seen (uop cfgThree [true, true, true] 0xF500#16) (fun t => (t.trace, t.dioLatch)) = some
    ([.clkW false, .delay 25, .dioW true, .delay 25, .dioCfgIn, .clkW true, .delay 25, .dioR true, .dioR true, .dioR true,
      .dioCfgOut, .dioW false, .delay 25, .clkW false], .known false) := by decide +kernel

/-- V11, the last row: the latch is not kept. -/
theorem test_uAckphase_latch :
    seen (uop { cfgThree with dioLatchKept := false } [true, false] 0xF500#16) (fun t => (t.events.length, t.dioLatch)) =
      some (12, .unk) := by decide +kernel

/-- V15. -/
theorem test_tFixmode : seen (uop cfg acks 0xF600#16) State.trace = some
    (tokS ++ tokB [false, false, true, false, false, false, true, false] ++ tokP) := by decide +kernel

/-- V16: no abort after a NACKed byte. -/
theorem test_tLeveldata_nack : seen (uop cfgThree [true, true, true, false] 0xF707#16) (fun t =>
    (sentTxns t.trace, t.errCnt, t.attCnt, t.events.filter fun e => !e.notDiag)) =
    some ([[0xC0#8, 0x7F#8]], 1#32, 2#32, [.diagNack 0xC0#8]) := by decide +kernel

/-- V15: TxnPower(0) carries the code of BRIGHT. -/
theorem test_tPower_off : seen { uop cfg acks 0xF800#16 with bright := .brightest } (fun t => sentTxns t.trace) =
    some [[0x87#8]] := by decide +kernel

/-- V15. -/
theorem test_tPower_on : seen { uop cfg acks 0xF801#16 with bright := .brightest } (fun t => sentTxns t.trace) =
    some [[0x8F#8]] := by decide +kernel

/-- V15. -/
theorem test_tAutomode : seen (uop cfg acks 0xF900#16) (fun t => (sentTxns t.trace, t.events.length)) =
    some ([[0x40#8]], 71) := by decide +kernel

/-- V15. -/
theorem test_tFramedata : seen (uop cfg acks 0xFA01#16) (fun t => (sentTxns t.trace, t.events.length)) =
    some ([[0xC1#8, 0x40#8, 0x40#8, 0x40#8]], 248) := by decide +kernel

/-- V15. -/
theorem test_tLevelwrite : seen (uop cfg acks 0xFB04#16) (fun t => (sentTxns t.trace, t.events.length)) =
    some ([[0x44#8], [0xC0#8, 0x0F#8]], 201) := by decide +kernel

/-- V15. -/
theorem test_tFramewrite : seen (uop cfg acks 0xFC00#16) (fun t => (sentTxns t.trace, t.events.length)) =
    some ([[0x40#8], [0xC1#8, 0#8, 0#8, 0#8]], 319) := by decide +kernel

/-- A frame operation by its internal name in a variant without blink stops by name. -/
theorem test_frame_absent : step (uop cfgNoBlink acks 0xFC00#16) = .refused .frameOperationAbsent := by rfl

/-- A word that rule R58 does not list stops by name. -/
theorem test_unknown_uop : step (uop cfg acks 0xF001#16) = .refused (.unknownSequencerWord 0xF001#16) := by rfl

/-! Operands. -/

/-- V3, the tie at 50 and the neighbours of a threshold, MAX_LEVEL = 7. -/
theorem test_percent : levelFromPercent cfg 49 = 3 ∧ levelFromPercent cfg 50 = 4 ∧ levelFromPercent cfg 92 = 6 ∧
    levelFromPercent cfg 93 = 7 ∧ levelFromPercent cfg 7 = 0 ∧ levelFromPercent cfg 8 = 1 := by decide

/-- E1. -/
theorem test_pattern : pattern 0#3 = 0x00#8 ∧ pattern 1#3 = 0x01#8 ∧ pattern 4#3 = 0x0F#8 ∧ pattern 7#3 = 0x7F#8 := by
  decide

/-- V5. -/
theorem test_power_bytes : powerByte cfg true (code cfg (brightClass 1#8)) = 0x88#8 ∧
    powerByte cfg false (code cfg (brightClass 2#8)) = 0x82#8 ∧
    powerByte cfg true (code cfg (brightClass 255#8)) = 0x8F#8 := by decide

/-! Witnesses: states and operands that meet the hypotheses of each obligation that has any, clause by clause. -/

/-- The step, or the meaning, gives a next state. -/
def Next (o : Host.Outcome State Fault Refusal) : Prop := ∃ t, o = .next t

theorem cfg_wf : cfg.wf := by decide

/-- A configured state that meets the invariant, before `ws`. -/
theorem inv_started (ws : List CmdWord) (ans : List Bool) : Inv (started cfg ans ws) where
  cfgWf := cfg_wf
  levelBounded := show (3#3).toNat ≤ (7#3).toNat by decide
  blinkAbsent h := by cases h
  countersAbsent h := by cases h
  markHasReason := by simp [started, fresh, State.resetWith]
  slotEmpty := rfl
  positionInProgram := Nat.zero_le _
  busFree _ := ⟨rfl, rfl, rfl, rfl⟩
  untouched h := by cases h

/-- A fresh state that meets the invariant, before `ws`. -/
theorem inv_fresh (ws : List CmdWord) (ans : List Bool) : Inv (fresh cfg ans ws) where
  cfgWf := cfg_wf
  levelBounded := show (0#3).toNat ≤ (7#3).toNat by decide
  blinkAbsent _ := rfl
  countersAbsent h := by cases h
  markHasReason := by simp [fresh, State.resetWith]
  slotEmpty := rfl
  positionInProgram := Nat.zero_le _
  busFree h := by cases h
  untouched _ := by simp [fresh, State.resetWith]

theorem witness_StepKeepsInvariant :
    (Inv (fresh cfg acks [0x0100#16]) ∧ Next (step (fresh cfg acks [0x0100#16]))) ∧
    (Inv (started cfg acks [0x030C#16]) ∧ Next (step (started cfg acks [0x030C#16]))) :=
  ⟨⟨inv_fresh _ _, _, rfl⟩, ⟨inv_started _ _, _, rfl⟩⟩

/-- A configured state whose trace sent the level 3 and the power byte of TYPICAL. -/
def sentStart : State :=
  { started cfg acks [0x0500#16] with
    events := (traceTxns cfg [[0x44#8], [0xC0#8, 0x07#8], [0x8A#8]] fun _ => false).reverse }

theorem witness_StepKeepsSentMatchesLogicalState :
    Inv sentStart ∧ powerBytesDistinct sentStart.cfg ∧ SentMatches sentStart ∧
    (sentStart.configured = true ∧ sentStart.dispOn = true) ∧ Next (step sentStart) := by
  refine ⟨?_, ?_, ?_, ⟨rfl, rfl⟩, _, rfl⟩
  · exact { inv_started [0x0500#16] acks with untouched := fun h => nomatch h }
  · intro on b
    cases on <;> cases b <;> decide
  · unfold SentMatches betweenTxns
    decide +kernel

theorem witness_StepRunsDecodedCommand :
    (started cfg acks [0x030C#16]).seqSlot = none ∧ (started cfg acks [0x030C#16]).program[0]? = some 0x030C#16 ∧
    decode cfg 0x030C#16 = .ok (.setLevel 12#8) ∧ Next (exec (.setLevel 12#8) (started cfg acks [0x030C#16])) :=
  ⟨rfl, rfl, by decide, _, rfl⟩

theorem witness_StepRunsSequencerWord :
    ((uop cfg acks 0xF4A5#16).seqSlot = some 0xF4A5#16 ∧ decodeUop 0xF4A5#16 = some (.uTxbyte 0xA5#8)) ∧
    ((uop cfg acks 0xFD00#16).seqSlot = some 0xFD00#16 ∧ decodeUop 0xFD00#16 = none) := by decide

theorem witness_StepIdleWithoutCommand :
    (started cfg acks []).seqSlot = none ∧ (started cfg acks []).program.length ≤ (started cfg acks []).position := by
  decide

theorem witness_NoCommandStopsTheBlock : (fresh cfg [] [0xFFFF#16]).seqSlot = none := rfl

/-- Before the last of two commands. -/
def lastCommand : State := { started cfg acks [0x0500#16, 0xFFFF#16] with position := 1 }

/-- At the end of a program. -/
def atTheEnd : State := { started cfg acks [0x0500#16] with position := 1 }

theorem witness_PositionCountsCommands :
    (lastCommand.seqSlot = none ∧ lastCommand.position < lastCommand.program.length ∧ Next (step lastCommand)) ∧
    (atTheEnd.seqSlot = none ∧ atTheEnd.position ≤ atTheEnd.program.length) :=
  ⟨⟨rfl, by decide, _, rfl⟩, ⟨rfl, by decide⟩⟩

theorem witness_ConfigurationNeverWritten : Next (step (fresh cfg acks [0x0100#16])) := ⟨_, rfl⟩

theorem witness_EventsAndResultsOnlyAppended : Next (step (fresh cfg acks [0x0100#16])) ∧
    (Next (exec .turnOff (started cfg acks [])) ∧ Instr.turnOff ≠ .readCounters) :=
  ⟨⟨_, rfl⟩, ⟨_, rfl⟩, by decide⟩

/-- A configured state with the refusal mark set. -/
def marked : State :=
  { started cfg [] [0x0A00#16] with refused := true, refuseReason := some .notConfigured }

theorem witness_RefusalChangesOnlyTheMark :
    ((started cfg [] [0x0B00#16]).seqSlot = none ∧ (started cfg [] [0x0B00#16]).program[0]? = some 0x0B00#16 ∧
      decode cfg 0x0B00#16 = .error .illegalOpcode) ∧
    ((fresh cfg [] [0x0300#16]).program[0]? = some 0x0300#16 ∧ decode cfg 0x0300#16 = .ok (.setLevel 0#8) ∧
      (fresh cfg [] [0x0300#16]).configured = false) ∧
    ((started cfg [] [0x0100#16]).program[0]? = some 0x0100#16 ∧ decode cfg 0x0100#16 = .ok .setup ∧
      (started cfg [] [0x0100#16]).configured = true) ∧
    (marked.refused = true ∧ marked.refuseReason = some .notConfigured ∧ Next (step marked)) :=
  ⟨⟨rfl, rfl, by decide⟩, ⟨rfl, by decide, rfl⟩, ⟨rfl, by decide, rfl⟩, ⟨rfl, rfl, _, rfl⟩⟩

/-- Each class of words, at the boundary opcodes. -/
theorem witness_DecoderClassifiesEveryWord :
    (0x00FF#16).toNat / 256 = 0 ∧ (0x0B00#16).toNat / 256 = 0x0B ∧ (0xFFFF#16).toNat / 256 = 0xFF ∧
    ((0x0701#16).toNat / 256 = 7 ∧ cfgNoBlink.blinkSupported = false) ∧
    ((0x0A00#16).toNat / 256 = 10 ∧ cfgNoCounters.hasCounters = false) ∧
    ((0x0A01#16).toNat / 256 = 10 ∧ (0x0A01#16).toNat % 256 ≠ 0 ∧ cfg.hasCounters = true) ∧
    ((0x0100#16).toNat / 256 = 1 ∧ (0x0100#16).toNat % 256 = 0) := by decide

theorem witness_DecodeEncodeRoundTrip :
    (Instr.hostIssuable (.setLevel 255#8) = true ∧ Instr.present cfg (.setLevel 255#8) = true) ∧
    decode cfg 0x0A00#16 = .ok .readCounters ∧ Instr.hostIssuable (.tLeveldata 7#3) = false ∧
    decodeUop 0xFC01#16 = some (.tFramewrite true) := by decide

theorem witness_InternalNamesIllegalOnCommandPort : Instr.hostIssuable .uStart = false := rfl

theorem witness_SpecWordsDecode : cfg.blinkSupported = true ∧ cfg.hasCounters = true := ⟨rfl, rfl⟩

theorem witness_AssembledWordsDecode : cfg.blinkSupported = true ∧ cfg.hasCounters = true ∧
    assembleLine "SET_LEVEL 255".toList = .ok (some 0x03FF#16) := by decide

theorem witness_BrightnessClassTable : (1#8).toNat ≤ 1 ∧ (2#8).toNat = 2 ∧ 3 ≤ (3#8).toNat := by decide

theorem witness_BrightnessIdempotentExactlyWhen :
    (cfg.codeDarkest.toNat ≤ 1 ∧ cfg.codeTypical = 2#3 ∧ 3 ≤ cfg.codeBrightest.toNat) ∧
    ¬({ cfg with codeTypical := 3#3 } : Config).codeTypical = 2#3 := by decide

theorem witness_LevelFromPercentLaws : 49 ≤ 50 ∧ 100 ≤ 100 := by decide

theorem witness_DioReadDrawsTheOracle : 1 < [true, false].length := by decide

theorem witness_AcknowledgmentReadsBounded :
    (1 ≤ (uop cfgThree [true, true, true] 0#16).cfg.ackSamples ∧
      ∀ j, j < 3 → (uop cfgThree [true, true, true] 0#16).answer j = true) ∧
    (2 < (uop cfgThree [true, true, false] 0#16).cfg.ackSamples ∧
      (∀ j, j < 2 → (uop cfgThree [true, true, false] 0#16).answer j = true) ∧
      (uop cfgThree [true, true, false] 0#16).answer 2 = false) := by decide

theorem witness_ByteCountsAttemptAndNack :
    (uop cfgThree [true, true, true] 0#16).cfg.hasCounters = true ∧
    (∃ k, k < 3 ∧ (uop cfgThree [true, true, false] 0#16).answer k = false) ∧
    (∀ k, k < 3 → (uop cfgThree [true, true, true] 0#16).answer k = true) ∧
    (uop cfgNoCounters [] 0#16).cfg.hasCounters = false :=
  ⟨rfl, ⟨2, by decide⟩, by decide, rfl⟩

theorem witness_BytePostconditions :
    (∀ k, k < 3 → (uop cfgThree [true, true, true] 0#16).answer k = true) ∧
    (∃ k, k < 3 ∧ (uop cfgThree [true, false] 0#16).answer k = false) ∧
    (1 ≤ (uop cfgThree [false] 0#16).cfg.ackSamples ∧ (uop cfgThree [false] 0#16).answer 0 = false) :=
  ⟨by decide, ⟨1, by decide⟩, by decide⟩

theorem witness_ProtocolLayersKeepDisplayState :
    Instr.hostIssuable (.tFramewrite true) = false ∧ Next (exec (.tFramewrite true) (started cfg acks [])) :=
  ⟨rfl, _, rfl⟩

/-- The highest level, where MAX_LEVEL is 4. -/
theorem witness_LevelAndPowerTransactions : (4#3).toNat ≤ (started cfgSmall acks []).cfg.maxLevel.toNat := by decide

/-- The lowest level above it. -/
theorem witness_LevelOperationsRunBeyondMaxLevel : (started cfgSmall acks []).cfg.maxLevel.toNat < (5#3).toNat := by
  decide

theorem witness_FrameTransactions : (started cfg acks []).cfg.blinkSupported = true := rfl

theorem witness_FrameOperationsAbsentWithoutBlink : (started cfgNoBlink acks []).cfg.blinkSupported = false := rfl

theorem witness_MonitorReadsBackTransactions :
    (betweenTxns [] ∧ ∀ t ∈ [[0x44#8], [0xC0#8, 0x7F#8]], t ≠ []) ∧
    ([0x44#8] ≠ [] ∧ betweenTxns (started cfg acks []).trace) := by
  unfold betweenTxns
  decide

theorem witness_SetupInitialises : (fresh cfg acks []).configured = false ∧ (started cfg [] []).configured = true := by
  decide

theorem witness_SetBrightnessStoresAndSends :
    ((startedOff cfg [] []).configured = true ∧ (startedOff cfg [] []).dispOn = false) ∧
    ((started cfg [] []).configured = true ∧ (started cfg [] []).dispOn = true ∧
      (started cfg [] []).cfg.brightnessResendsLevel = false) ∧
    ((started cfgHardened [] []).configured = true ∧ (started cfgHardened [] []).dispOn = true ∧
      (started cfgHardened [] []).cfg.brightnessResendsLevel = true) ∧
    (fresh cfg [] []).configured = false := by decide

theorem witness_SetLevelStoresAndSends :
    ((startedOff cfg [] []).configured = true ∧ (startedOff cfg [] []).dispOn = false) ∧
    ((started cfg [] []).configured = true ∧ (started cfg [] []).dispOn = true) ∧
    (fresh cfg [] []).configured = false := by decide

theorem witness_SetLevelPercentStoresAndSends :
    ((startedOff cfg [] []).configured = true ∧ (startedOff cfg [] []).dispOn = false) ∧
    ((started cfg [] []).configured = true ∧ (started cfg [] []).dispOn = true) ∧
    (fresh cfg [] []).configured = false := by decide

theorem witness_TurnOnAndTurnOff : (startedOff cfg [] []).configured = true ∧ (fresh cfg [] []).configured = false := by
  decide

theorem witness_BlinkCommandsSendTheFrame :
    ((started cfg [] []).configured = true ∧ (started cfg [] []).cfg.blinkSupported = true) ∧
    (started cfgNoBlink [] []).cfg.blinkSupported = false ∧
    ((fresh cfg [] []).cfg.blinkSupported = true ∧ (fresh cfg [] []).configured = false) := by decide

theorem witness_CounterCommands :
    ((started cfg [] []).configured = true ∧ (started cfg [] []).cfg.hasCounters = true) ∧
    (started cfgNoCounters [] []).cfg.hasCounters = false ∧
    ((fresh cfg [] []).cfg.hasCounters = true ∧ (fresh cfg [] []).configured = false) := by decide

/-- The boundary levels 7 and 12, and the boundary percentages. -/
theorem witness_ClampingLaws : (startedOff cfg [] []).configured = true ∧
    Next (exec (.setLevel 7#8) (startedOff cfg [] [])) ∧ Next (exec (.setLevelPercent 255#8) (startedOff cfg [] [])) ∧
    BitVec.ofNat 8 ((startedOff cfg [] []).cfg.maxLevel.toNat + 5) = 12#8 ∧ 100 ≤ (100#8).toNat ∧ 100 ≤ (101#8).toNat :=
  ⟨rfl, ⟨_, rfl⟩, ⟨_, rfl⟩, by decide, by decide, by decide⟩

theorem witness_RetentionAcrossOffAndOn : (started cfg acks []).configured = true := rfl

theorem witness_OnlySetupWritesConfigured :
    (Instr.turnOff ≠ .setup ∧ Next (exec .turnOff (started cfg acks []))) ∧ Next (exec .setup (fresh cfg acks [])) ∧
    (Next (step (started cfg acks [0x0600#16])) ∧ (started cfg acks [0x0600#16]).configured = true) :=
  ⟨⟨by decide, _, rfl⟩, ⟨_, rfl⟩, ⟨_, rfl⟩, rfl⟩

theorem witness_HostCommandsWriteOnlyTheirRegisters :
    (Instr.hostIssuable .turnOn = true ∧ Next (exec .turnOn (started cfg acks []))) ∧
    ((startedOff cfg [] []).dispOn = false ∧ Next (exec (.setLevelPercent 50#8) (startedOff cfg [] []))) ∧
    exec .turnOff (fresh cfg [] []) = .next (refuse .notConfigured (fresh cfg [] [])) :=
  ⟨⟨rfl, _, rfl⟩, ⟨rfl, _, rfl⟩, rfl⟩

theorem witness_AcknowledgmentsChangeNothingSent :
    Instr.hostIssuable .turnOn = true ∧ betweenTxns (started cfg acks []).trace ∧
    Next (exec .turnOn (started cfg acks [])) :=
  ⟨rfl, by unfold betweenTxns; decide, _, rfl⟩

theorem witness_CountersNeverSteer : Next (exec .readCounters (started cfg [] [])) := ⟨_, rfl⟩

theorem witness_DiagnosticChannelChangesNothingElse :
    Next (exec (.uTxbyte 0#8) (started cfgThree [true, true, true] [])) := ⟨_, rfl⟩

theorem witness_DataChangesOnlyWhileClockLow :
    [0xC0#8, 0x7F#8] ≠ [] ∧ (started cfg acks []).clkLvl = .known true ∧ (fresh cfg acks []).clkLvl = .unk := by decide

theorem witness_PinsUsedInTheirDirections :
    (Inv (fresh cfg acks []) ∧ Instr.hostIssuable .setup = true ∧ Next (exec .setup (fresh cfg acks []))) ∧
    (Inv (started cfg acks []) ∧ Instr.hostIssuable .turnOff = true ∧ Next (exec .turnOff (started cfg acks []))) :=
  ⟨⟨inv_fresh _ _, rfl, _, rfl⟩, ⟨inv_started _ _, rfl, _, rfl⟩⟩

theorem witness_OperationDelayTotals :
    Next (exec (.tFramewrite false) (started cfg acks [])) ∧ Instr.hostIssuable (.tFramewrite false) = false :=
  ⟨⟨_, rfl⟩, rfl⟩

theorem witness_CommandDelayTotals :
    (Instr.hostIssuable .setup = true ∧ Instr.present cfg .setup = true ∧ Next (exec .setup (fresh cfg acks [])) ∧
      (Instr.setup = .setup ↔ (fresh cfg acks []).configured = false)) ∧
    (Instr.hostIssuable .setBlinkOn = true ∧ Instr.present cfg .setBlinkOn = true ∧
      Next (exec .setBlinkOn (started cfg acks [])) ∧
      (Instr.setBlinkOn = .setup ↔ (started cfg acks []).configured = false)) :=
  ⟨⟨rfl, rfl, ⟨_, rfl⟩, by decide⟩, ⟨rfl, rfl, ⟨_, rfl⟩, by decide⟩⟩

end Sys2Proof.Tests
end

section
/-!
PROOFS. 00_scope.md rule R14: what the internal sequencer names leave unchanged.
-/

namespace Sys2Proof.Machine

/-- An internal name only counts bytes, uses answers of the oracle, and drives the two lines. -/
theorem UopEffect.eq_counted_afterReads_drive {s t : State} {i : Instr} (h : UopEffect s i t) :
    ∃ m k n es clk dir latch, t = ((s.counted m k).afterReads n).drive es clk dir latch := by
  cases h with
  | start | stop | sendbit _ | raiseclk =>
    exact ⟨0, 0, 0, _, _, _, _, by rw [counted_zero, afterReads_zero]⟩
  | ackphase => exact ⟨0, 0, _, _, _, _, _, by rw [counted_zero]⟩
  | txbyte _ => exact ⟨_, _, _, _, _, _, _, rfl⟩
  | fixmode | leveldata _ | power _ | automode _ | framedata _ _ | levelwrite _ | framewrite _ _ =>
    exact ⟨_, _, _, _, _, _, _, rfl⟩

/-- Settles O34: counting, reading and driving the lines write no register but the counters, CLK_LVL, DIO_DIR and
DIO_LATCH. -/
theorem protocolLayersKeepDisplayState : Obligations.ProtocolLayersKeepDisplayState := by
  intro i s t hi h
  obtain ⟨m, k, n, es, clk, dir, latch, rfl⟩ := (exec_uop_cases i s t hi h).eq_counted_afterReads_drive
  simp

end Sys2Proof.Machine
end

section
/-!
PROOFS. 10_state.md rule R23: the bytes last sent encode LEVEL and code(BRIGHT) while the display is on. The monitor reads
each transaction back as its bytes; what a host command sends then decides the level byte and the power byte.
-/

namespace Sys2Proof.Machine

/-! The monitor over framed transactions (41_chip_commands.md rules R81 and R82). -/

/-- Between two transactions the monitor holds no bit and no byte, and each line is unwritten or high. -/
def Monitor.Free (m : Monitor) : Prop :=
  m.bits = [] ∧ m.bytes = [] ∧ (m.clk = .unk ∧ m.dio = .unk ∨ m.clk = .known true ∧ m.dio = .known true)

theorem betweenTxns_iff_free (es : List Event) : betweenTxns es ↔ (monitor es).Free := Iff.rfl

theorem Monitor.run_start (m : Monitor) (c : Config) (h : m.Free) :
    m.run (traceStart c) = { m with clk := .known true, dio := .known false } := by
  obtain ⟨-, -, ⟨hc, hd⟩ | ⟨hc, hd⟩⟩ := h <;>
    simp [Monitor.run, traceStart, Monitor.see, waitHalf, waitQuarter, hc, hd]

/-- The stop sequence ends the transaction; the bit that its rising clock takes is dropped. -/
theorem Monitor.run_stop (m : Monitor) (c : Config) (h : m.clk = .known false) :
    m.run (traceStop c) =
      { clk := .known true, dio := .known true, bits := [], bytes := [], txns := m.txns ++ [m.bytes] } := by
  simp [Monitor.run, traceStop, Monitor.see, waitHalf, waitQuarter, h]

theorem Monitor.run_bytes (m : Monitor) (c : Config) (bs : List Byte) (ans : Nat → Bool) (hm : m.bits = [])
    (hb : bs ≠ []) : ∃ d, m.run (traceBytes c bs ans) =
      { m with clk := .known false, dio := .known d, bits := [], bytes := m.bytes ++ bs } := by
  induction bs generalizing m ans with
  | nil => exact absurd rfl hb
  | cons v vs ih =>
    rw [traceBytes_cons, Monitor.run_append, Monitor.run_byte m c v _ hm]
    cases vs with
    | nil => exact ⟨_, rfl⟩
    | cons w ws =>
      simpa using ih ⟨.known false, .known (ackOf (ackReads c.ackSamples ans)), [], m.bytes ++ [v], m.txns⟩
        (laterAnswers (ackReads c.ackSamples ans).length ans) rfl (List.cons_ne_nil w ws)

/-- One transaction is read back as its bytes, and the lines are left high. -/
theorem Monitor.run_txn (m : Monitor) (c : Config) (bs : List Byte) (ans : Nat → Bool) (hm : m.Free)
    (hb : bs ≠ []) : m.run (traceTxn c bs ans) =
      { clk := .known true, dio := .known true, bits := [], bytes := [], txns := m.txns ++ [bs] } := by
  obtain ⟨hbits, hbytes, -⟩ := id hm
  rw [traceTxn, Monitor.run_append, Monitor.run_append, Monitor.run_start m c hm]
  obtain ⟨d, hd⟩ := Monitor.run_bytes { m with clk := .known true, dio := .known false } c bs ans hbits hb
  rw [hd, Monitor.run_stop _ c rfl]
  simp [hbytes]

/-- Transactions in a row are read back, whatever was acknowledged. -/
theorem Monitor.run_txns (m : Monitor) (c : Config) (ts : List (List Byte)) (ans : Nat → Bool) (hm : m.Free)
    (ht : ∀ t ∈ ts, t ≠ []) :
    (m.run (traceTxns c ts ans)).txns = m.txns ++ ts ∧ (m.run (traceTxns c ts ans)).Free := by
  induction ts generalizing m ans with
  | nil => simpa [traceTxns, Monitor.run] using hm
  | cons bs ts ih =>
    obtain ⟨hb, hts⟩ := List.forall_mem_cons.mp ht
    rw [traceTxns, Monitor.run_append, Monitor.run_txn m c bs ans hm hb]
    obtain ⟨htxns, hfree⟩ := ih ⟨.known true, .known true, [], [], m.txns ++ [bs]⟩
      (laterAnswers (readCount c bs.length ans) ans) ⟨rfl, rfl, .inr ⟨rfl, rfl⟩⟩ hts
    exact ⟨by rw [htxns, List.append_assoc, List.singleton_append], hfree⟩

/-- A trace of transactions sends exactly those, and ends between two transactions again. -/
theorem sentTxns_append_traceTxns (es : List Event) (c : Config) (ts : List (List Byte)) (ans : Nat → Bool)
    (h : betweenTxns es) (ht : ∀ t ∈ ts, t ≠ []) :
    sentTxns (es ++ traceTxns c ts ans) = sentTxns es ++ ts ∧ betweenTxns (es ++ traceTxns c ts ans) := by
  rw [sentTxns, betweenTxns_iff_free, monitor_append]
  exact Monitor.run_txns _ c ts ans h ht

/-- Configuring the lines as outputs, which comes before SETUP's transactions, is not seen. -/
theorem monitor_append_cfgOut (es : List Event) : monitor (es ++ [.clkCfgOut, .dioCfgOut]) = monitor es := by
  rw [monitor_append]; rfl

/-! What each operation's transactions do to the level byte and the power byte most recently sent. -/

section
variable (ts : List (List Byte)) (c : Config) (n : Bits3) (on : Bool) (b : BrightClass)

@[simp] theorem lastLevelByte_append_levelTxns : lastLevelByte (ts ++ levelTxns c n) = some (pattern n) := by
  simp [lastLevelByte, levelTxns]

@[simp] theorem lastLevelByte_append_powerTxns : lastLevelByte (ts ++ powerTxns c on b) = lastLevelByte ts := by
  simp [lastLevelByte, powerTxns]

@[simp] theorem lastLevelByte_append_frameTxns : lastLevelByte (ts ++ frameTxns c on) = lastLevelByte ts := by
  simp [lastLevelByte, frameTxns]

@[simp] theorem lastPowerByte_append_levelTxns : lastPowerByte c (ts ++ levelTxns c n) = lastPowerByte c ts := by
  simp [lastPowerByte, levelTxns]

@[simp] theorem lastPowerByte_append_frameTxns : lastPowerByte c (ts ++ frameTxns c on) = lastPowerByte c ts := by
  simp [lastPowerByte, frameTxns]

/-- A power byte is no mode byte, so it is the power byte most recently sent. -/
theorem lastPowerByte_append_powerTxns (hd : powerBytesDistinct c) :
    lastPowerByte c (ts ++ powerTxns c on b) = some (powerByte c on (code c b)) := by
  obtain ⟨hfixed, hauto⟩ := hd on b
  simp [lastPowerByte, powerTxns, hfixed, hauto]

end

/-! No operation sends an empty transaction. -/

theorem levelTxns_ne_nil (c : Config) (n : Bits3) : ∀ t ∈ levelTxns c n, t ≠ [] := by simp [levelTxns]

theorem powerTxns_ne_nil (c : Config) (on : Bool) (b : BrightClass) : ∀ t ∈ powerTxns c on b, t ≠ [] := by
  simp [powerTxns]

theorem frameTxns_ne_nil (c : Config) (on : Bool) : ∀ t ∈ frameTxns c on, t ≠ [] := by simp [frameTxns]

theorem append_ne_nil_of_forall {ts us : List (List Byte)} (ht : ∀ t ∈ ts, t ≠ []) (hu : ∀ t ∈ us, t ≠ []) :
    ∀ t ∈ ts ++ us, t ≠ [] :=
  fun t h => (List.mem_append.mp h).elim (ht t) (hu t)

theorem brightnessTxns_ne_nil (c : Config) (n : Bits3) (b : BrightClass) : ∀ t ∈ brightnessTxns c n b, t ≠ [] := by
  unfold brightnessTxns
  split
  · exact append_ne_nil_of_forall (levelTxns_ne_nil c n) (powerTxns_ne_nil c true b)
  · exact powerTxns_ne_nil c true b

/-! The correspondence. -/

/-- The bytes most recently sent by `ts` encode the level `n` and the class `b` (rule R23). -/
def BytesEncode (c : Config) (ts : List (List Byte)) (n : Bits3) (b : BrightClass) : Prop :=
  lastLevelByte ts = some (pattern n) ∧ lastPowerByte c ts = some (powerByte c true (code c b))

section
variable {c : Config} {ts : List (List Byte)} {n : Bits3} {b : BrightClass}

/-- A level write replaces the encoded level. -/
theorem BytesEncode.append_levelTxns (h : BytesEncode c ts n b) (m : Bits3) :
    BytesEncode c (ts ++ levelTxns c m) m b :=
  ⟨lastLevelByte_append_levelTxns ts c m, (lastPowerByte_append_levelTxns ts c m).trans h.2⟩

/-- A power-on byte replaces the encoded class. -/
theorem BytesEncode.append_powerTxns (h : BytesEncode c ts n b) (hd : powerBytesDistinct c) (k : BrightClass) :
    BytesEncode c (ts ++ powerTxns c true k) n k :=
  ⟨(lastLevelByte_append_powerTxns ts c true k).trans h.1, lastPowerByte_append_powerTxns ts c true k hd⟩

/-- A frame write replaces neither. -/
theorem BytesEncode.append_frameTxns (h : BytesEncode c ts n b) (on : Bool) :
    BytesEncode c (ts ++ frameTxns c on) n b :=
  ⟨(lastLevelByte_append_frameTxns ts c on).trans h.1, (lastPowerByte_append_frameTxns ts c on).trans h.2⟩

/-- A level write and a power-on byte encode what they send, whatever was sent before. -/
theorem bytesEncode_levelTxns_powerTxns (hd : powerBytesDistinct c) :
    BytesEncode c (ts ++ (levelTxns c n ++ powerTxns c true b)) n b := by
  rw [← List.append_assoc]
  exact ⟨(lastLevelByte_append_powerTxns _ c true b).trans (lastLevelByte_append_levelTxns ts c n),
    lastPowerByte_append_powerTxns _ c true b hd⟩

end

/-- Sending `ts` keeps the correspondence when the bytes it leaves encode the registers, as far as the display is on. -/
theorem sentMatches_sent {s : State} {ts : List (List Byte)} (hs : betweenTxns s.trace) (ht : ∀ t ∈ ts, t ≠ [])
    (h : s.configured = true → s.dispOn = true → BytesEncode s.cfg (sentTxns s.trace ++ ts) s.level s.bright) :
    SentMatches (s.sent ts) := by
  obtain ⟨htxns, hbetween⟩ := sentTxns_append_traceTxns s.trace s.cfg ts s.answer hs ht
  rw [← sent_trace] at htxns hbetween
  refine ⟨hbetween, ?_⟩
  rw [htxns]
  simpa [BytesEncode] using h

/-- With the display off the correspondence asks for nothing but a trace between two transactions. -/
theorem sentMatches_of_dispOff {s : State} (hs : betweenTxns s.trace) (hoff : s.dispOn = false) : SentMatches s :=
  ⟨hs, fun _ hon => absurd (hoff.symm.trans hon) Bool.false_ne_true⟩

/-- A host command that has its effect keeps the correspondence. -/
theorem Effect.sentMatches {s t : State} {i : Instr} (he : Effect s i t) (hc : s.configured = true)
    (hd : powerBytesDistinct s.cfg) (hs : SentMatches s) : SentMatches t := by
  obtain ⟨hbetween, hbytes⟩ : betweenTxns s.trace ∧ (s.configured = true → s.dispOn = true →
    BytesEncode s.cfg (sentTxns s.trace) s.level s.bright) := hs
  cases he with
  | brightnessOff _ hoff | levelOff _ hoff | percentOff _ hoff => exact sentMatches_of_dispOff hbetween hoff
  | brightnessOn raw hon =>
    refine sentMatches_sent hbetween (brightnessTxns_ne_nil _ _ _) fun _ _ => ?_
    unfold brightnessTxns
    split
    · exact bytesEncode_levelTxns_powerTxns hd
    · exact (hbytes hc hon).append_powerTxns hd _
  | levelOn _ hon | percentOn _ hon =>
    exact sentMatches_sent hbetween (levelTxns_ne_nil _ _) fun _ _ => (hbytes hc hon).append_levelTxns _
  | on =>
    exact sentMatches_sent hbetween (append_ne_nil_of_forall (levelTxns_ne_nil _ _) (powerTxns_ne_nil _ _ _))
      fun _ _ => bytesEncode_levelTxns_powerTxns hd
  | off =>
    exact sentMatches_sent hbetween (powerTxns_ne_nil _ _ _) fun _ hon => absurd hon Bool.false_ne_true
  | blinkOn _ | blinkOff _ =>
    exact sentMatches_sent hbetween (frameTxns_ne_nil _ _) fun _ hon => (hbytes hc hon).append_frameTxns _
  | reset _ | read _ => exact ⟨hbetween, hbytes⟩

/-- Every host command keeps the correspondence: refused, as SETUP, or by its effect. -/
theorem HostCase.sentMatches {s t : State} {i : Instr} (h : HostCase s i t) (hd : powerBytesDistinct s.cfg)
    (hs : SentMatches s) : SentMatches t := by
  rcases h with ⟨-, rfl⟩ | ⟨-, -, -, rfl⟩ | ⟨-, -, rfl⟩ | ⟨-, -, rfl⟩ | ⟨-, hc, he⟩
  · exact hs
  · exact hs
  · exact hs
  · refine sentMatches_sent ?_ (append_ne_nil_of_forall (levelTxns_ne_nil _ _) (powerTxns_ne_nil _ _ _)) fun _ _ =>
      bytesEncode_levelTxns_powerTxns hd
    rw [record_trace, setupRegisters_trace, betweenTxns_iff_free, monitor_append_cfgOut]
    exact hs.1
  · exact he.sentMatches hc hd hs

/-- Settles O4: with the sequencer slot empty a step is idle, a refusal, or a host command, and each keeps the bytes last
sent in step with LEVEL and BRIGHT. -/
theorem stepKeepsSentMatchesLogicalState : Obligations.StepKeepsSentMatchesLogicalState := by
  intro s t hinv hd hs h
  rcases step_cases s t h with ⟨w, i, hslot, -, -⟩ | ⟨-, -, rfl⟩ | ⟨w, r, -, -, -, rfl⟩ | ⟨w, i, u, -, -, hdec, hu, rfl⟩
  · exact absurd (hslot.symm.trans hinv.slotEmpty) (by simp)
  · exact hs
  · exact hs
  · exact (exec_host_cases s i u (decode_ok _ _ _ hdec).1 hu).sentMatches hd hs

end Sys2Proof.Machine
end

section
/-!
PROOFS. 10_state.md rules R16 and R32: the position counts the commands, and no step writes the configuration.
-/

namespace Sys2Proof.Machine

/-- With the sequencer slot empty a step always gives a next state. -/
theorem step_next_of_slotEmpty (s : State) (h : s.seqSlot = none) : ∃ t, step s = .next t := by
  unfold step
  rw [h]
  cases hw : fetch s with
  | none => exact ⟨s, rfl⟩
  | some w =>
    dsimp only
    unfold stepCommand
    cases hd : decode s.cfg w with
    | error r => exact ⟨_, rfl⟩
    | ok i =>
      obtain ⟨t, ht⟩ := exec_host_next i s (decode_ok _ _ _ hd).1
      exact ⟨advance t, by simp only [ht, advanceNext]⟩

/-- A step with a command pending takes exactly that command from the port, executed or refused. -/
theorem step_takes_command (s t : State) (hs : s.seqSlot = none) (hp : s.position < s.program.length)
    (h : step s = .next t) : t.position = s.position + 1 ∧ t.program = s.program ∧ t.seqSlot = none := by
  rcases step_cases s t h with ⟨w, i, hw, -, -⟩ | ⟨-, hend, -⟩ | ⟨w, r, -, -, -, rfl⟩ | ⟨w, i, u, -, -, -, hu, rfl⟩
  · exact absurd (hw.symm.trans hs) (by simp)
  · exact absurd (List.getElem?_eq_none_iff.mp hend) (Nat.not_le_of_lt hp)
  · exact ⟨rfl, rfl, hs⟩
  · obtain ⟨-, hprogram, hposition, hslot⟩ := exec_kept i s u hu
    exact ⟨congrArg (· + 1) hposition, hprogram, hslot.trans hs⟩

/-- `n` steps take the `n` commands that are left. -/
theorem runSteps_takes_commands (n : Nat) (s : State) (hs : s.seqSlot = none)
    (hn : s.position + n = s.program.length) :
    ∃ t, runSteps n s = .next t ∧ t.position = t.program.length ∧ t.program = s.program := by
  induction n generalizing s with
  | zero => exact ⟨s, rfl, hn, rfl⟩
  | succ n ih =>
    obtain ⟨u, hu⟩ := step_next_of_slotEmpty s hs
    obtain ⟨hposition, hprogram, hslot⟩ := step_takes_command s u hs (by omega) hu
    obtain ⟨t, ht, hend, hkept⟩ := ih u hslot (by rw [hposition, hprogram]; omega)
    exact ⟨t, by simp only [runSteps, hu, ht], hend, hkept.trans hprogram⟩

/-- Settles O9: one step takes one command, and so as many steps as commands are left take them all. -/
theorem positionCountsCommands : Obligations.PositionCountsCommands := by
  constructor
  · intro s t hs hp h
    obtain ⟨hposition, hprogram, -⟩ := step_takes_command s t hs hp h
    exact ⟨hposition, hprogram⟩
  · intro s hs hp
    exact runSteps_takes_commands _ s hs (by omega)

/-- Settles O10: no meaning writes the configuration, and neither do a refusal, the position's advance or the emptying of
the slot. -/
theorem configurationNeverWritten : Obligations.ConfigurationNeverWritten := by
  intro s t h
  rcases step_cases s t h with ⟨w, i, -, -, hi⟩ | ⟨-, -, rfl⟩ | ⟨w, r, -, -, -, rfl⟩ | ⟨w, i, u, -, -, -, hu, rfl⟩
  · exact (exec_kept i (clearSlot s) t hi).1
  · rfl
  · rfl
  · exact (exec_kept i s u hu).1

end Sys2Proof.Machine
end

section
/-!
PROOFS. 10_state.md rules R24 and R33: the registers that each host command writes, by the cases of its effect.
-/

namespace Sys2Proof.Machine

section
variable {s t : State} {i : Instr}

/-- A command that runs leaves CONFIGURED, CLK_DIR and the refusal mark. -/
theorem Effect.keeps_mark (h : Effect s i t) :
    t.configured = s.configured ∧ t.clkDir = s.clkDir ∧ t.refused = s.refused ∧ t.refuseReason = s.refuseReason := by
  cases h <;> simp

/-- LEVEL is written by the two level commands alone. -/
theorem Effect.level_eq (h : Effect s i t) (hl : ∀ n, i ≠ .setLevel n) (hp : ∀ p, i ≠ .setLevelPercent p) :
    t.level = s.level := by
  cases h with
  | levelOff n _ | levelOn n _ => exact absurd rfl (hl n)
  | percentOff p _ | percentOn p _ => exact absurd rfl (hp p)
  | brightnessOff _ _ | reset _ | read _ => rfl
  | brightnessOn _ _ | on | off | blinkOn _ | blinkOff _ => exact sent_level _ _

/-- BRIGHT is written by SET_BRIGHTNESS alone. -/
theorem Effect.bright_eq (h : Effect s i t) (hr : ∀ r, i ≠ .setBrightness r) : t.bright = s.bright := by
  cases h with
  | brightnessOff raw _ | brightnessOn raw _ => exact absurd rfl (hr raw)
  | levelOff _ _ | percentOff _ _ | reset _ | read _ => rfl
  | levelOn _ _ | percentOn _ _ | on | off | blinkOn _ | blinkOff _ => exact sent_bright _ _

/-- DISP_ON is written by TURN_ON and TURN_OFF alone. -/
theorem Effect.dispOn_eq (h : Effect s i t) (hon : i ≠ .turnOn) (hoff : i ≠ .turnOff) : t.dispOn = s.dispOn := by
  cases h with
  | on => exact absurd rfl hon
  | off => exact absurd rfl hoff
  | brightnessOff _ _ | levelOff _ _ | percentOff _ _ | reset _ | read _ => rfl
  | brightnessOn _ _ | levelOn _ _ | percentOn _ _ | blinkOn _ | blinkOff _ => exact sent_dispOn _ _

/-- BLINK_ON is written by the two blink commands alone. -/
theorem Effect.blinkOn_eq (h : Effect s i t) (hon : i ≠ .setBlinkOn) (hoff : i ≠ .setBlinkOff) :
    t.blinkOn = s.blinkOn := by
  cases h with
  | blinkOn _ => exact absurd rfl hon
  | blinkOff _ => exact absurd rfl hoff
  | brightnessOff _ _ | levelOff _ _ | percentOff _ _ | reset _ | read _ => rfl
  | brightnessOn _ _ | levelOn _ _ | percentOn _ _ | on | off => exact sent_blinkOn _ _

/-- Results are appended by READ_COUNTERS alone. -/
theorem Effect.results_eq (h : Effect s i t) (hr : i ≠ .readCounters) : t.results = s.results := by
  cases h with
  | read _ => exact absurd rfl hr
  | brightnessOff _ _ | levelOff _ _ | percentOff _ _ | reset _ => rfl
  | brightnessOn _ _ | levelOn _ _ | percentOn _ _ | on | off | blinkOn _ | blinkOff _ => exact sent_results _ _

end

/-- The commands that transmit nothing: the two counter commands, and with the display off the three that store a display
register. -/
def Silent (s : State) (i : Instr) : Prop :=
  i = .resetErrorCounters ∨ i = .readCounters ∨
    (s.dispOn = false ∧ ((∃ n, i = .setLevel n) ∨ (∃ p, i = .setLevelPercent p) ∨ ∃ r, i = .setBrightness r))

/-- The trace, the pins and the reads made are as before, and so are the counters but for RESET_ERROR_COUNTERS. -/
def NothingSent (s : State) (i : Instr) (t : State) : Prop :=
  t.trace = s.trace ∧ t.clkLvl = s.clkLvl ∧ t.dioDir = s.dioDir ∧ t.dioLatch = s.dioLatch ∧ t.dioReads = s.dioReads ∧
    (i ≠ .resetErrorCounters → t.errCnt = s.errCnt ∧ t.attCnt = s.attCnt)

/-- A silent command that is no counter command finds the display off. -/
theorem Silent.dispOff {s : State} {i : Instr} (h : Silent s i) (hr : i ≠ .resetErrorCounters)
    (hc : i ≠ .readCounters) : s.dispOn = false :=
  ((h.resolve_left hr).resolve_left hc).1

/-- A silent command that runs sends nothing. -/
theorem Effect.nothingSent {s t : State} {i : Instr} (h : Effect s i t) (hs : Silent s i) : NothingSent s i t := by
  cases h with
  | brightnessOff _ _ | levelOff _ _ | percentOff _ _ | read _ => exact ⟨rfl, rfl, rfl, rfl, rfl, fun _ => ⟨rfl, rfl⟩⟩
  | reset _ => exact ⟨rfl, rfl, rfl, rfl, rfl, fun hr => absurd rfl hr⟩
  | brightnessOn _ hon | levelOn _ hon | percentOn _ hon =>
    exact absurd ((hs.dispOff (by simp) (by simp)).symm.trans hon) Bool.false_ne_true
  | on | off | blinkOn _ | blinkOff _ => simp [Silent] at hs

/-- A refused command writes the mark alone. -/
theorem nothingSent_refuse (s : State) (i : Instr) (r : RefuseReason) : NothingSent s i (refuse r s) :=
  ⟨rfl, rfl, rfl, rfl, rfl, fun _ => ⟨rfl, rfl⟩⟩

/-- A host command is refused, is the first SETUP, or has its effect. -/
theorem HostCase.refused_or_setup_or_effect {s t : State} {i : Instr} (h : HostCase s i t) :
    (∃ r, t = refuse r s) ∨
    (i = .setup ∧ t = State.sent (State.record (setupRegisters s) [.clkCfgOut, .dioCfgOut]) (setupTxns s.cfg)) ∨
    (i ≠ .setup ∧ Effect s i t) := by
  rcases h with ⟨-, ht⟩ | ⟨-, -, -, ht⟩ | ⟨-, -, ht⟩ | ⟨hi, -, ht⟩ | ⟨hi, -, he⟩
  · exact .inl ⟨_, ht⟩
  · exact .inl ⟨_, ht⟩
  · exact .inl ⟨_, ht⟩
  · exact .inr (.inl ⟨hi, ht⟩)
  · exact .inr (.inr ⟨hi, he⟩)

/-- Every instruction but SETUP leaves CONFIGURED: the internal names by rule R14, the host commands by their effects. -/
theorem exec_configured_of_ne_setup (i : Instr) (s t : State) (hi : i ≠ .setup) (h : exec i s = .next t) :
    t.configured = s.configured := by
  rcases Bool.eq_false_or_eq_true i.hostIssuable with hh | hh
  · rcases (exec_host_cases s i t hh h).refused_or_setup_or_effect with ⟨r, rfl⟩ | ⟨hsetup, -⟩ | ⟨-, he⟩
    · rfl
    · exact absurd hsetup hi
    · exact he.keeps_mark.1
  · obtain ⟨-, -, -, -, hconfigured, -⟩ := protocolLayersKeepDisplayState i s t hh h
    exact hconfigured

/-- After SETUP the block is configured, whether this one initialised it or an earlier one did. -/
theorem exec_setup_configured (s t : State) (h : exec .setup s = .next t) : t.configured = true := by
  rcases exec_host_cases s .setup t rfl h with ⟨hp, -⟩ | ⟨-, hne, -⟩ | ⟨-, hc, rfl⟩ | ⟨-, -, rfl⟩ | ⟨hne, -⟩
  · exact absurd hp (by simp [Instr.present])
  · exact absurd rfl hne
  · exact hc
  · exact sent_configured _ _
  · exact absurd rfl hne

/-- A configured block stays configured. -/
theorem exec_keeps_configured (i : Instr) (s t : State) (h : exec i s = .next t) (hc : s.configured = true) :
    t.configured = true := by
  by_cases hi : i = .setup
  · subst hi
    exact exec_setup_configured s t h
  · exact (exec_configured_of_ne_setup i s t hi h).trans hc

/-- Settles O49: SETUP alone writes CONFIGURED, and it writes 1. -/
theorem onlySetupWritesConfigured : Obligations.OnlySetupWritesConfigured := by
  refine ⟨exec_configured_of_ne_setup, exec_setup_configured, ?_⟩
  intro s t h hc
  rcases step_cases s t h with ⟨w, i, -, -, hi⟩ | ⟨-, -, rfl⟩ | ⟨w, r, -, -, -, rfl⟩ | ⟨w, i, u, -, -, -, hu, rfl⟩
  · exact exec_keeps_configured i (clearSlot s) t hi hc
  · exact hc
  · exact hc
  · exact exec_keeps_configured i s u hu hc

/-- Settles O50: a refused command writes the mark alone, SETUP is excepted in each clause that it could break, and the
other commands write the registers of their effects. -/
theorem hostCommandsWriteOnlyTheirRegisters : Obligations.HostCommandsWriteOnlyTheirRegisters := by
  intro i s t hi h
  obtain ⟨hcfg, hprogram, hposition, hslot⟩ := exec_kept i s t h
  rcases (exec_host_cases s i t hi h).refused_or_setup_or_effect with ⟨r, rfl⟩ | ⟨rfl, rfl⟩ | ⟨-, he⟩
  · exact ⟨fun _ _ _ => rfl, fun _ _ => rfl, fun _ _ _ => rfl, fun _ _ _ => rfl, fun _ => rfl, fun _ => rfl,
      .inl ⟨r, rfl⟩, fun _ => rfl, rfl, rfl, rfl, rfl, fun _ => nothingSent_refuse s i r⟩
  · simp
  · obtain ⟨hconfigured, hclkDir, hmark⟩ := he.keeps_mark
    exact ⟨fun hl hp _ => he.level_eq hl hp, fun hr _ => he.bright_eq hr, fun hon hoff _ => he.dispOn_eq hon hoff,
      fun hon hoff _ => he.blinkOn_eq hon hoff, fun _ => hconfigured, fun _ => hclkDir, .inr hmark, he.results_eq,
      hcfg, hprogram, hposition, hslot, he.nothingSent⟩

end Sys2Proof.Machine
end

section
/-!
PROOFS. 10_state.md rule R26: the counters never steer. Moving both counters by fixed amounts commutes with every
operation but the two that name the counters, RESET_ERROR_COUNTERS and READ_COUNTERS; two states that differ only in the
counters are one such move apart.
-/

namespace Sys2Proof.Machine

/-- `s` with ERR_CNT moved by `de` and ATT_CNT by `da`, modulo 2^32. -/
def State.shiftCounters (s : State) (de da : Count) : State :=
  { s with errCnt := s.errCnt + de, attCnt := s.attCnt + da }

/-- Any two counter values are a move away. -/
theorem shiftCounters_sub (s : State) (e a : Count) :
    s.shiftCounters (e - s.errCnt) (a - s.attCnt) = { s with errCnt := e, attCnt := a } := by
  simp [State.shiftCounters, BitVec.add_comm _ (_ - _)]

section
variable (s : State) (de da : Count)

@[simp] theorem shiftCounters_cfg : (s.shiftCounters de da).cfg = s.cfg := rfl
@[simp] theorem shiftCounters_dioDir : (s.shiftCounters de da).dioDir = s.dioDir := rfl
@[simp] theorem shiftCounters_dioLatch : (s.shiftCounters de da).dioLatch = s.dioLatch := rfl
@[simp] theorem shiftCounters_dispOn : (s.shiftCounters de da).dispOn = s.dispOn := rfl
@[simp] theorem shiftCounters_configured : (s.shiftCounters de da).configured = s.configured := rfl
@[simp] theorem shiftCounters_answer : (s.shiftCounters de da).answer = s.answer := rfl

/-! Each operation commutes with the move. -/

theorem drive_shiftCounters (es : List Event) (k : Level) (d : DioDir) (l : Level) :
    (s.shiftCounters de da).drive es k d l = (s.drive es k d l).shiftCounters de da := rfl

theorem afterReads_shiftCounters (n : Nat) :
    (s.shiftCounters de da).afterReads n = (s.afterReads n).shiftCounters de da := rfl

/-- Counting adds to the counters, and additions commute. -/
theorem counted_shiftCounters (m k : Nat) :
    (s.shiftCounters de da).counted m k = (s.counted m k).shiftCounters de da := by
  unfold State.counted
  rw [shiftCounters_cfg]
  split
  · simp [State.shiftCounters, add_right_comm]
  · rfl

theorem sent_shiftCounters (ts : List (List Byte)) :
    (s.shiftCounters de da).sent ts = (s.sent ts).shiftCounters de da := by
  simp only [State.sent, shiftCounters_cfg, shiftCounters_answer, counted_shiftCounters, afterReads_shiftCounters,
    drive_shiftCounters]

theorem sentByte_shiftCounters (v : Byte) :
    (s.shiftCounters de da).sentByte v = (s.sentByte v).shiftCounters de da := by
  simp only [State.sentByte, shiftCounters_cfg, shiftCounters_answer, counted_shiftCounters, afterReads_shiftCounters,
    drive_shiftCounters]
  rfl

theorem transmitByte_shiftCounters (v : Byte) :
    (transmitByte v (s.shiftCounters de da)).2 = (transmitByte v s).2.shiftCounters de da := by
  rw [transmitByte_eq, transmitByte_eq, sentByte_shiftCounters]

theorem assertStart_shiftCounters : assertStart (s.shiftCounters de da) = (assertStart s).shiftCounters de da := by
  rw [assertStart_eq, assertStart_eq, drive_shiftCounters, shiftCounters_cfg, shiftCounters_dioDir]

theorem assertStop_shiftCounters : assertStop (s.shiftCounters de da) = (assertStop s).shiftCounters de da := by
  rw [assertStop_eq, assertStop_eq, drive_shiftCounters, shiftCounters_cfg, shiftCounters_dioDir]

theorem sendBit_shiftCounters (b : Bool) : sendBit b (s.shiftCounters de da) = (sendBit b s).shiftCounters de da := by
  rw [sendBit_eq, sendBit_eq, drive_shiftCounters, shiftCounters_cfg, shiftCounters_dioDir]

theorem raiseClock_shiftCounters : raiseClock (s.shiftCounters de da) = (raiseClock s).shiftCounters de da := by
  rw [raiseClock_eq, raiseClock_eq, drive_shiftCounters, shiftCounters_cfg, shiftCounters_dioDir,
    shiftCounters_dioLatch]

theorem ackPhase_shiftCounters :
    (ackPhase (s.shiftCounters de da)).2 = (ackPhase s).2.shiftCounters de da := by
  rw [ackPhase_eq, ackPhase_eq]; rfl

theorem txn_shiftCounters (bs : List Byte) (hb : bs ≠ []) :
    txn bs (s.shiftCounters de da) = (txn bs s).shiftCounters de da := by
  rw [txn_eq _ bs hb, txn_eq s bs hb, sent_shiftCounters]

theorem levelWrite_shiftCounters (n : Bits3) :
    levelWrite n (s.shiftCounters de da) = (levelWrite n s).shiftCounters de da := by
  rw [levelWrite_eq, levelWrite_eq, sent_shiftCounters, shiftCounters_cfg]

theorem frameWrite_shiftCounters (on : Bool) :
    frameWrite on (s.shiftCounters de da) = (frameWrite on s).shiftCounters de da := by
  rw [frameWrite_eq, frameWrite_eq, sent_shiftCounters, shiftCounters_cfg]

theorem setupBody_shiftCounters : setupBody (s.shiftCounters de da) = (setupBody s).shiftCounters de da := by
  rw [setupBody_eq, setupBody_eq]
  exact sent_shiftCounters (State.record (setupRegisters s) [.clkCfgOut, .dioCfgOut]) de da (setupTxns s.cfg)

theorem setBrightnessBody_shiftCounters (raw : Byte) :
    setBrightnessBody raw (s.shiftCounters de da) = (setBrightnessBody raw s).shiftCounters de da := by
  rw [setBrightnessBody_eq, setBrightnessBody_eq, shiftCounters_dispOn]
  split
  · exact sent_shiftCounters { s with bright := brightClass raw } de da _
  · rfl

theorem storeLevel_shiftCounters (n : Bits3) :
    storeLevel n (s.shiftCounters de da) = (storeLevel n s).shiftCounters de da := by
  rw [storeLevel_eq, storeLevel_eq, shiftCounters_dispOn]
  split
  · exact sent_shiftCounters { s with level := n } de da _
  · rfl

theorem turnOnBody_shiftCounters : turnOnBody (s.shiftCounters de da) = (turnOnBody s).shiftCounters de da := by
  rw [turnOnBody_eq, turnOnBody_eq]
  exact sent_shiftCounters { s with dispOn := true } de da _

theorem turnOffBody_shiftCounters : turnOffBody (s.shiftCounters de da) = (turnOffBody s).shiftCounters de da := by
  rw [turnOffBody_eq, turnOffBody_eq]
  exact sent_shiftCounters { s with dispOn := false } de da _

theorem setBlinkBody_shiftCounters (on : Bool) :
    setBlinkBody on (s.shiftCounters de da) = (setBlinkBody on s).shiftCounters de da :=
  frameWrite_shiftCounters { s with blinkOn := on } de da on

/-- Whether a command runs does not depend on the counters. -/
theorem whenRunnable_shiftCounters (p : Bool) (body : State → State)
    (hb : body (s.shiftCounters de da) = (body s).shiftCounters de da) :
    whenRunnable p body (s.shiftCounters de da) = (whenRunnable p body s).shiftCounters de da := by
  unfold whenRunnable
  rw [shiftCounters_configured, hb]
  split
  · split <;> rfl
  · rfl

/-- Whether a frame operation runs does not depend on the counters. -/
theorem whenBlink_shiftCounters (op : State → State) (t : State)
    (ho : op (s.shiftCounters de da) = (op s).shiftCounters de da) (h : whenBlink op s = .next t) :
    whenBlink op (s.shiftCounters de da) = .next (t.shiftCounters de da) := by
  obtain ⟨hb, rfl⟩ := whenBlink_next op s t h
  rw [whenBlink, shiftCounters_cfg, if_pos hb, ho]

/-- A meaning that is one operation commutes with the move where the operation does. -/
theorem next_shiftCounters {f : State → State} {t : State}
    (hf : f (s.shiftCounters de da) = (f s).shiftCounters de da)
    (h : (.next (f s) : Host.Outcome State Fault Refusal) = .next t) :
    (.next (f (s.shiftCounters de da)) : Host.Outcome State Fault Refusal) = .next (t.shiftCounters de da) := by
  rw [hf, Host.Outcome.next.inj h]

/-- Every instruction but the two counter commands commutes with the move. -/
theorem exec_shiftCounters (i : Instr) (t : State) (hreset : i ≠ .resetErrorCounters) (hread : i ≠ .readCounters)
    (h : exec i s = .next t) : exec i (s.shiftCounters de da) = .next (t.shiftCounters de da) := by
  have runnable (p : Bool) {body : State → State} (hb : body (s.shiftCounters de da) = (body s).shiftCounters de da) :=
    next_shiftCounters s de da (t := t) (whenRunnable_shiftCounters s de da p body hb)
  have runs (f : State → State) := next_shiftCounters s de da (f := f) (t := t)
  cases i with
  | setup =>
    refine runs (fun s => if s.configured then refuse .alreadyConfigured s else setupBody s) ?_ h
    rw [shiftCounters_configured, setupBody_shiftCounters]
    split <;> rfl
  | setBrightness raw => exact runnable true (setBrightnessBody_shiftCounters s de da raw) h
  | setLevel n => exact runnable true (body := setLevelBody n) (storeLevel_shiftCounters s de da _) h
  | setLevelPercent p => exact runnable true (body := setLevelPercentBody p) (storeLevel_shiftCounters s de da _) h
  | turnOn => exact runnable true (turnOnBody_shiftCounters s de da) h
  | turnOff => exact runnable true (turnOffBody_shiftCounters s de da) h
  | setBlinkOn => exact runnable s.cfg.blinkSupported (setBlinkBody_shiftCounters s de da true) h
  | setBlinkOff => exact runnable s.cfg.blinkSupported (setBlinkBody_shiftCounters s de da false) h
  | resetErrorCounters => exact absurd rfl hreset
  | readCounters => exact absurd rfl hread
  | uStart => exact runs assertStart (assertStart_shiftCounters s de da) h
  | uStop => exact runs assertStop (assertStop_shiftCounters s de da) h
  | uSendbit b => exact runs (sendBit b) (sendBit_shiftCounters s de da b) h
  | uRaiseclk => exact runs raiseClock (raiseClock_shiftCounters s de da) h
  | uTxbyte v => exact runs (fun s => (transmitByte v s).2) (transmitByte_shiftCounters s de da v) h
  | uAckphase => exact runs (fun s => (ackPhase s).2) (ackPhase_shiftCounters s de da) h
  | tFixmode => exact runs txnFixMode (txn_shiftCounters s de da _ (by simp)) h
  | tLeveldata n => exact runs (txnLevelData n) (txn_shiftCounters s de da _ (by simp)) h
  | tPower on => exact runs (txnPower on) (txn_shiftCounters s de da _ (by simp)) h
  | tLevelwrite n => exact runs (levelWrite n) (levelWrite_shiftCounters s de da n) h
  | tAutomode => exact whenBlink_shiftCounters s de da txnAutoMode t (txn_shiftCounters s de da _ (by simp)) h
  | tFramedata on =>
    exact whenBlink_shiftCounters s de da (txnFrameData on) t (txn_shiftCounters s de da _ (by simp)) h
  | tFramewrite on => exact whenBlink_shiftCounters s de da (frameWrite on) t (frameWrite_shiftCounters s de da on) h

end

/-- An increment is modulo 2^32. -/
theorem bump_toNat (n : Count) : (bump n).toNat = (n.toNat + 1) % 2 ^ 32 := BitVec.toNat_add n 1#32

/-- What two states that differ only in the counters answer: `t` from `s`, and `t'` from `s` with the counters at `e` and
`a`. The states agree but for the counters and READ_COUNTERS' result, and the counters move by the same amounts. -/
def SameButCounters (i : Instr) (s t t' : State) (e a : Count) : Prop :=
  { t' with errCnt := t.errCnt, attCnt := t.attCnt, results := t.results } = t ∧
    (i ≠ .readCounters → t'.results = t.results) ∧
    (i ≠ .resetErrorCounters → t'.errCnt - e = t.errCnt - s.errCnt ∧ t'.attCnt - a = t.attCnt - s.attCnt)

/-- The move that takes the counters of `s` to `e` and `a` takes them equally far after the instruction. -/
theorem sameButCounters_shiftCounters (i : Instr) (s t : State) (e a : Count) :
    SameButCounters i s t (t.shiftCounters (e - s.errCnt) (a - s.attCnt)) e a := by
  have hmove (x y z : Count) : x + (y - z) - y = x - z := by ring
  exact ⟨rfl, fun _ => rfl, fun _ => ⟨hmove _ _ _, hmove _ _ _⟩⟩

/-- The two counter commands, which do not commute with the move: both states refuse the command, or both run it. -/
theorem sameButCounters_whenRunnable (i : Instr) (s : State) (e a : Count) (p : Bool) (body : State → State)
    (hb : SameButCounters i s (body s) (body { s with errCnt := e, attCnt := a }) e a) :
    SameButCounters i s (whenRunnable p body s) (whenRunnable p body { s with errCnt := e, attCnt := a }) e a := by
  have hrefuse (r : RefuseReason) :
      SameButCounters i s (refuse r s) (refuse r { s with errCnt := e, attCnt := a }) e a :=
    ⟨rfl, fun _ => rfl, fun _ => by simp⟩
  unfold whenRunnable
  dsimp only
  split
  · split
    · exact hb
    · exact hrefuse _
  · exact hrefuse _

/-- Settles O52: RESET_ERROR_COUNTERS and READ_COUNTERS by what they do to the counters and the results, and every other
instruction because it commutes with the move of the counters. -/
theorem countersNeverSteer : Obligations.CountersNeverSteer := by
  refine ⟨bump_toNat, fun i s t e a h => ?_⟩
  by_cases hreset : i = .resetErrorCounters
  · subst hreset
    obtain rfl := Host.Outcome.next.inj h
    exact ⟨_, rfl, sameButCounters_whenRunnable .resetErrorCounters s e a s.cfg.hasCounters resetErrorCountersBody
      ⟨rfl, fun _ => rfl, fun hne => absurd rfl hne⟩⟩
  by_cases hread : i = .readCounters
  · subst hread
    obtain rfl := Host.Outcome.next.inj h
    exact ⟨_, rfl, sameButCounters_whenRunnable .readCounters s e a s.cfg.hasCounters readCountersBody
      ⟨rfl, fun hne => absurd rfl hne, fun _ => by simp [readCountersBody]⟩⟩
  · rw [← shiftCounters_sub]
    exact ⟨_, exec_shiftCounters s _ _ i t hreset hread h, sameButCounters_shiftCounters i s t e a⟩

end Sys2Proof.Machine
end

section
/-!
PROOFS. 20_memory.md rules R43 and R46, and the lines as they are read back (41_chip_commands.md rules R81 and R82):
what a DIO read draws, that the monitor reads each transaction as its bytes, and that a step only appends to what is
recorded.
-/

namespace Sys2Proof.Machine

/-- The answer stream after a read is the stream without its first answer. -/
theorem pinRead_answer (s : State) (k : Nat) : (pinRead s).2.answer k = s.answer (k + 1) := by
  rw [pinRead_eq, record_answer, afterReads_answer_apply, Nat.add_comm]

/-- Settles O25: a read uses one answer of the oracle and records it; a listed answer is the list's entry. -/
theorem dioReadDrawsTheOracle : Obligations.DioReadDrawsTheOracle := by
  constructor
  · intro s
    exact ⟨rfl, rfl, emit_trace _ _, pinRead_answer s⟩
  · intro s bs k h
    simp [State.answer, h]

/-- Settles O39: the monitor reads back any transactions in a row, and `txn` sends its bytes as one of them. -/
theorem monitorReadsBackTransactions : Obligations.MonitorReadsBackTransactions := by
  constructor
  · intro c ts ans es h ht
    exact sentTxns_append_traceTxns es c ts ans h ht
  · intro s bs hb h
    rw [txn_eq s bs hb, sent_trace]
    exact sentTxns_append_traceTxns s.trace s.cfg [bs] s.answer h (by simpa using hb)

/-! What an instruction appends. -/

/-- A host command that has its effect records nothing, or transactions that leave DIO an output. -/
theorem Effect.trace_eq {s t : State} {i : Instr} (h : Effect s i t) :
    t.trace = s.trace ∨ ∃ ts, t.trace = s.trace ++ traceTxns s.cfg ts s.answer ∧ t.dioDir = .out := by
  cases h with
  | brightnessOff _ _ | levelOff _ _ | percentOff _ _ | reset _ | read _ => exact .inl rfl
  | brightnessOn _ _ | levelOn _ _ | percentOn _ _ | on | off | blinkOn _ | blinkOff _ =>
    exact .inr ⟨_, sent_trace _ _, sent_dioDir _ _⟩

/-- The trace of a first SETUP: both lines become outputs before its transactions. -/
theorem setup_trace (s : State) :
    (State.sent (State.record (setupRegisters s) [.clkCfgOut, .dioCfgOut]) (setupTxns s.cfg)).trace =
      s.trace ++ ([.clkCfgOut, .dioCfgOut] ++ traceTxns s.cfg (setupTxns s.cfg) s.answer) := by
  simp

/-- Every instruction only appends to the trace. -/
theorem exec_appends_trace (i : Instr) (s t : State) (h : exec i s = .next t) : ∃ seg, t.trace = s.trace ++ seg := by
  rcases Bool.eq_false_or_eq_true i.hostIssuable with hh | hh
  · rcases (exec_host_cases s i t hh h).refused_or_setup_or_effect with ⟨r, rfl⟩ | ⟨-, rfl⟩ | ⟨-, he⟩
    · exact ⟨[], (List.append_nil _).symm⟩
    · exact ⟨_, setup_trace s⟩
    · rcases he.trace_eq with ht | ⟨ts, ht, -⟩
      · exact ⟨[], by rw [ht, List.append_nil]⟩
      · exact ⟨_, ht⟩
  · obtain ⟨m, k, n, es, clk, dir, latch, rfl⟩ := (exec_uop_cases i s t hh h).eq_counted_afterReads_drive
    exact ⟨es, by simp⟩

/-- Every instruction but READ_COUNTERS leaves the results. -/
theorem exec_results_eq (i : Instr) (s t : State) (h : exec i s = .next t) (hi : i ≠ .readCounters) :
    t.results = s.results := by
  rcases Bool.eq_false_or_eq_true i.hostIssuable with hh | hh
  · rcases (exec_host_cases s i t hh h).refused_or_setup_or_effect with ⟨r, rfl⟩ | ⟨-, rfl⟩ | ⟨-, he⟩
    · rfl
    · exact sent_results _ _
    · exact he.results_eq hi
  · obtain ⟨m, k, n, es, clk, dir, latch, rfl⟩ := (exec_uop_cases i s t hh h).eq_counted_afterReads_drive
    simp

/-- READ_COUNTERS is refused or appends the counters' pair (30_encoding.md rule R64). -/
theorem exec_readCounters_appends_results (s t : State) (h : exec .readCounters s = .next t) :
    ∃ rs, t.results = s.results ++ rs := by
  rcases (exec_host_cases s .readCounters t rfl h).refused_or_setup_or_effect with ⟨r, rfl⟩ | ⟨hsetup, -⟩ | ⟨-, he⟩
  · exact ⟨[], (List.append_nil _).symm⟩
  · cases hsetup
  · cases he with
    | read _ => exact ⟨[(s.errCnt, s.attCnt)], rfl⟩

/-- `t` has the trace and the results of `s`, with events and results appended. -/
def Appends (s t : State) : Prop :=
  ∃ (seg : List Event) (rs : List (Count × Count)), t.trace = s.trace ++ seg ∧ t.results = s.results ++ rs

/-- What leaves the trace and the results appends nothing to them. -/
theorem appends_of_eq {s t : State} (htrace : t.trace = s.trace) (hresults : t.results = s.results) : Appends s t :=
  ⟨[], [], by rw [htrace, List.append_nil], by rw [hresults, List.append_nil]⟩

/-- Every instruction only appends to the trace and to the results. -/
theorem exec_appends (i : Instr) (s t : State) (h : exec i s = .next t) : Appends s t := by
  obtain ⟨seg, hseg⟩ := exec_appends_trace i s t h
  by_cases hi : i = .readCounters
  · subst hi
    obtain ⟨rs, hrs⟩ := exec_readCounters_appends_results s t h
    exact ⟨seg, rs, hseg, hrs⟩
  · exact ⟨seg, [], hseg, by rw [exec_results_eq i s t h hi, List.append_nil]⟩

/-- Settles O11: an idle step and a refused word append nothing, and every instruction only appends. -/
theorem eventsAndResultsOnlyAppended : Obligations.EventsAndResultsOnlyAppended := by
  refine ⟨fun s t h => ?_, exec_results_eq⟩
  rcases step_cases s t h with ⟨w, i, -, -, hi⟩ | ⟨-, -, rfl⟩ | ⟨w, r, -, -, -, rfl⟩ | ⟨w, i, u, -, -, -, hu, rfl⟩
  · exact exec_appends i (clearSlot s) t hi
  · exact appends_of_eq rfl rfl
  · exact appends_of_eq rfl rfl
  · exact exec_appends i s u hu

end Sys2Proof.Machine
end

section
/-!
PROOFS. 20_memory.md rules R42 and R43: every host command writes the lines as outputs and reads DIO as an input. Each
part of a transaction does, from two outputs to two outputs; before a transaction both lines are outputs, by SETUP
itself or by the invariant after it.
-/

namespace Sys2Proof.Machine

/-- From two outputs, the events use the pins in their directions and leave both lines outputs. -/
def KeepsOutputs (es : List Event) : Prop :=
  pinUseOk .out .out es = true ∧ dirsAfter (.out, .out) es = (.out, .out)

theorem keepsOutputs_append {es fs : List Event} (he : KeepsOutputs es) (hf : KeepsOutputs fs) :
    KeepsOutputs (es ++ fs) := by
  obtain ⟨huse, hdirs⟩ := he
  rw [KeepsOutputs, pinUseOk_append, dirsAfter_append, huse, hdirs]
  exact hf

theorem keepsOutputs_traceBytes (c : Config) (bs : List Byte) (ans : Nat → Bool) :
    KeepsOutputs (traceBytes c bs ans) := by
  induction bs generalizing ans with
  | nil => exact ⟨rfl, rfl⟩
  | cons v vs ih =>
    rw [traceBytes_cons]
    exact keepsOutputs_append (pins_byte c v _) (ih _)

theorem keepsOutputs_traceTxns (c : Config) (ts : List (List Byte)) (ans : Nat → Bool) :
    KeepsOutputs (traceTxns c ts ans) := by
  have hstart : KeepsOutputs (traceStart c) := ⟨rfl, rfl⟩
  have hstop : KeepsOutputs (traceStop c) := ⟨rfl, rfl⟩
  induction ts generalizing ans with
  | nil => exact ⟨rfl, rfl⟩
  | cons bs ts ih =>
    exact keepsOutputs_append
      (keepsOutputs_append (keepsOutputs_append hstart (keepsOutputs_traceBytes c bs ans)) hstop) (ih _)

/-- Configuring both lines as outputs makes any directions fit for what follows. -/
theorem pinUseOk_cfgOut (cd : ClkDir) (dd : DioDir) (es : List Event) :
    pinUseOk cd dd ([.clkCfgOut, .dioCfgOut] ++ es) = pinUseOk .out .out es := rfl

/-- What a command from `s` to `t` records uses the pins in their directions, and where it records anything the lines
are left outputs. -/
def UsesPins (s t : State) : Prop :=
  ∃ seg, t.trace = s.trace ++ seg ∧ pinUseOk s.clkDir s.dioDir seg = true ∧
    (seg ≠ [] → t.clkDir = .out ∧ t.dioDir = .out)

/-- What records nothing uses no pin. -/
theorem usesPins_of_trace_eq {s t : State} (h : t.trace = s.trace) : UsesPins s t :=
  ⟨[], by rw [h, List.append_nil], rfl, fun hne => absurd rfl hne⟩

/-- A host command that has its effect finds both lines outputs. -/
theorem Effect.usesPins {s t : State} {i : Instr} (h : Effect s i t) (hclk : s.clkDir = .out) (hdio : s.dioDir = .out) :
    UsesPins s t := by
  rcases h.trace_eq with ht | ⟨ts, ht, hout⟩
  · exact usesPins_of_trace_eq ht
  · obtain ⟨-, hkept, -, -⟩ := h.keeps_mark
    refine ⟨_, ht, ?_, fun _ => ⟨hkept.trans hclk, hout⟩⟩
    rw [hclk, hdio]
    exact (keepsOutputs_traceTxns s.cfg ts s.answer).1

/-- A first SETUP configures both lines before it uses them. -/
theorem usesPins_setup (s : State) :
    UsesPins s (State.sent (State.record (setupRegisters s) [.clkCfgOut, .dioCfgOut]) (setupTxns s.cfg)) := by
  refine ⟨_, setup_trace s, ?_, fun _ => ⟨sent_clkDir _ _, sent_dioDir _ _⟩⟩
  rw [pinUseOk_cfgOut]
  exact (keepsOutputs_traceTxns _ _ _).1

/-- Settles O55: a refused command records nothing, SETUP configures the lines first, and any other command runs on a
configured block, whose lines are outputs by the invariant. -/
theorem pinsUsedInTheirDirections : Obligations.PinsUsedInTheirDirections := by
  intro i s t hinv hi h
  rcases exec_host_cases s i t hi h with ⟨-, rfl⟩ | ⟨-, -, -, rfl⟩ | ⟨-, -, rfl⟩ | ⟨-, -, rfl⟩ | ⟨-, hc, he⟩
  · exact usesPins_of_trace_eq rfl
  · exact usesPins_of_trace_eq rfl
  · exact usesPins_of_trace_eq rfl
  · exact usesPins_setup s
  · obtain ⟨hclk, hdio, -, -⟩ := hinv.busFree hc
    exact he.usesPins hclk hdio

end Sys2Proof.Machine
end

section
/-!
PROOFS. 30_encoding.md rules R48, R49, R54 to R56 and R63: the command port's decoder. A word fails one of the three
checks and is refused for the first that it fails, or it decodes to the one host command whose encoding it is.
-/

namespace Sys2Proof

@[simp] theorem decodeBare_eq_ok {imm : Byte} {i j : Instr} : decodeBare imm i = .ok j ↔ imm = 0#8 ∧ i = j := by
  by_cases h : imm = 0#8 <;> simp [decodeBare, h]

@[simp] theorem decodeBare_eq_error {imm : Byte} {i : Instr} {r : RefuseReason} :
    decodeBare imm i = .error r ↔ imm ≠ 0#8 ∧ .reservedOperand = r := by
  by_cases h : imm = 0#8 <;> simp [decodeBare, h]

@[simp] theorem decodeVariant_eq_ok {there : Bool} {d : Except RefuseReason Instr} {i : Instr} :
    decodeVariant there d = .ok i ↔ there = true ∧ d = .ok i := by
  cases there <;> simp [decodeVariant]

@[simp] theorem decodeVariant_eq_error {there : Bool} {d : Except RefuseReason Instr} {r : RefuseReason} :
    decodeVariant there d = .error r ↔
      (there = false ∧ .variantAbsent = r) ∨ (there = true ∧ d = .error r) := by
  cases there <;> simp [decodeVariant]

/-- The encoding of a present host command decodes to it. -/
theorem decode_encode (c : Config) (i : Instr) (hhost : i.hostIssuable = true) (hpres : i.present c = true) :
    decode c (encode i) = .ok i := by
  unfold decode
  rw [opField_encode, immField_encode]
  cases i with
  | setup | turnOn | turnOff => exact decodeBare_eq_ok.2 ⟨rfl, rfl⟩
  | setBrightness _ | setLevel _ | setLevelPercent _ => rfl
  | setBlinkOn | setBlinkOff | resetErrorCounters | readCounters =>
    exact decodeVariant_eq_ok.2 ⟨hpres, decodeBare_eq_ok.2 ⟨rfl, rfl⟩⟩
  | uStart | uStop | uSendbit _ | uRaiseclk | uTxbyte _ | uAckphase => cases hhost
  | tFixmode | tLeveldata _ | tPower _ | tAutomode | tFramedata _ | tLevelwrite _ | tFramewrite _ => cases hhost

/-- A word is the encoding of the instruction whose fields it has, with the opcode as a decoder's row gives it. -/
theorem encode_eq_of_toNat {w : CmdWord} {i : Instr} (harg : operandField i = immField w)
    (hop : (opField w).toNat = (opcode i).toNat) : encode i = w :=
  encode_eq w i (BitVec.eq_of_toNat_eq hop.symm) harg

/-- An operand-less command that a word decodes to has the word as its encoding. -/
theorem encode_of_decodeBare {w : CmdWord} {i j : Instr} (h : decodeBare (immField w) j = .ok i)
    (hop : (opField w).toNat = (opcode j).toNat) (hj : operandField j = 0#8) : encode i = w := by
  obtain ⟨himm, rfl⟩ := decodeBare_eq_ok.1 h
  exact encode_eq_of_toNat (hj.trans himm.symm) hop

/-- What a word decodes to has the word as its encoding. -/
theorem encode_of_decode_ok (c : Config) (w : CmdWord) (i : Instr) (h : decode c w = .ok i) : encode i = w := by
  unfold decode at h
  dsimp only at h
  split at h
  case h_1 hop | h_5 hop | h_6 hop => exact encode_of_decodeBare h hop rfl
  case h_2 hop | h_3 hop | h_4 hop => cases h; exact encode_eq_of_toNat rfl hop
  case h_7 hop | h_8 hop | h_9 hop | h_10 hop => exact encode_of_decodeBare (decodeVariant_eq_ok.1 h).2 hop rfl
  case h_11 => cases h

/-- OP names no command (rule R55). -/
def OpcodeIllegal (w : CmdWord) : Prop := (opField w).toNat = 0 ∨ 0x0B ≤ (opField w).toNat

/-- OP names a command of a variant that the configuration lacks (rule R56). -/
def VariantAbsent (c : Config) (w : CmdWord) : Prop :=
  (((opField w).toNat = 7 ∨ (opField w).toNat = 8) ∧ c.blinkSupported = false) ∨
    (((opField w).toNat = 9 ∨ (opField w).toNat = 10) ∧ c.hasCounters = false)

/-- OP names a command without operand, and the operand field is not 0 (rule R54). -/
def OperandReserved (w : CmdWord) : Prop :=
  (opField w).toNat ∈ [1, 5, 6, 7, 8, 9, 10] ∧ (immField w).toNat ≠ 0

theorem decode_of_opcodeIllegal (c : Config) (w : CmdWord) (h : OpcodeIllegal w) :
    decode c w = .error .illegalOpcode := by
  unfold OpcodeIllegal at h
  unfold decode
  dsimp only
  split
  case h_11 => rfl
  all_goals omega

theorem decode_of_variantAbsent (c : Config) (w : CmdWord) (h : VariantAbsent c w) :
    decode c w = .error .variantAbsent := by
  rcases h with ⟨hop | hop, hlack⟩ | ⟨hop | hop, hlack⟩ <;> simp [decode, hop, hlack]

/-- A word that passes the opcode's checks gives a command without operand, with its reserved field still to be checked,
or a command that takes any operand. -/
theorem decode_of_opcode_ok (c : Config) (w : CmdWord) (hlegal : ¬OpcodeIllegal w) (hthere : ¬VariantAbsent c w) :
    ((opField w).toNat ∈ [1, 5, 6, 7, 8, 9, 10] ∧ ∃ i, decode c w = decodeBare (immField w) i) ∨
    ((opField w).toNat ∉ [1, 5, 6, 7, 8, 9, 10] ∧ ∃ i, decode c w = .ok i) := by
  unfold decode
  dsimp only
  split
  case h_1 hop | h_5 hop | h_6 hop => exact .inl ⟨by simp [hop], _, rfl⟩
  case h_2 hop | h_3 hop | h_4 hop => exact .inr ⟨by simp [hop], _, rfl⟩
  case h_7 hop | h_8 hop =>
    have hblink : c.blinkSupported = true := by simpa [VariantAbsent, hop] using hthere
    exact .inl ⟨by simp [hop], _, if_pos hblink⟩
  case h_9 hop | h_10 hop =>
    have hcounters : c.hasCounters = true := by simpa [VariantAbsent, hop] using hthere
    exact .inl ⟨by simp [hop], _, if_pos hcounters⟩
  case h_11 =>
    simp only [OpcodeIllegal, imp_false] at *
    omega

theorem decode_of_operandReserved (c : Config) (w : CmdWord) (hlegal : ¬OpcodeIllegal w) (hthere : ¬VariantAbsent c w)
    (h : OperandReserved w) : decode c w = .error .reservedOperand := by
  obtain ⟨hmem, himm⟩ := h
  obtain ⟨-, i, hd⟩ | ⟨hmem', -⟩ := decode_of_opcode_ok c w hlegal hthere
  · exact hd.trans (if_neg fun h0 => himm (congrArg BitVec.toNat h0))
  · exact absurd hmem hmem'

/-- A word that passes every check decodes to a command. -/
theorem decode_of_checks (c : Config) (w : CmdWord) (hlegal : ¬OpcodeIllegal w) (hthere : ¬VariantAbsent c w)
    (hfield : ¬OperandReserved w) : ∃ i, decode c w = .ok i := by
  obtain ⟨hmem, i, hd⟩ | ⟨-, hd⟩ := decode_of_opcode_ok c w hlegal hthere
  · have himm : immField w = 0#8 := BitVec.eq_of_toNat_eq (not_not.1 fun hne => hfield ⟨hmem, hne⟩)
    exact ⟨i, hd.trans (if_pos himm)⟩
  · exact hd

/-- Settles O14: each refusal is the first check that fails, and what a word decodes to has the word's fields. -/
theorem decoderClassifiesEveryWord : Obligations.DecoderClassifiesEveryWord := by
  intro c w
  simp only [← opField_toNat, ← immField_toNat]
  refine ⟨decode_of_opcodeIllegal c w, fun _ => decode_of_variantAbsent c w, decode_of_operandReserved c w,
    fun hlegal hthere hfield => ?_⟩
  obtain ⟨i, hd⟩ := decode_of_checks c w hlegal hthere hfield
  obtain ⟨hhost, hpres⟩ := decode_ok c w i hd
  obtain rfl := encode_of_decode_ok c w i hd
  exact ⟨i, hd, by rw [opField_encode], by rw [immField_encode], hhost, hpres⟩

/-- An internal name's opcode lies above every command's. -/
theorem opcodeIllegal_encode_of_internal (i : Instr) (hi : i.hostIssuable = false) : OpcodeIllegal (encode i) := by
  rw [OpcodeIllegal, opField_encode]
  cases i with
  | uStart | uStop | uSendbit _ | uRaiseclk | uTxbyte _ | uAckphase => exact .inr (by simp [opcode])
  | tFixmode | tLeveldata _ | tPower _ | tAutomode | tFramedata _ | tLevelwrite _ | tFramewrite _ =>
    exact .inr (by simp [opcode])
  | setup | setBrightness _ | setLevel _ | setLevelPercent _ | turnOn | turnOff => cases hi
  | setBlinkOn | setBlinkOff | resetErrorCounters | readCounters => cases hi

/-- Settles O16: the opcodes 0xF0 to 0xFC name no command. -/
theorem internalNamesIllegalOnCommandPort : Obligations.InternalNamesIllegalOnCommandPort :=
  fun c i hi => decode_of_opcodeIllegal c (encode i) (opcodeIllegal_encode_of_internal i hi)

end Sys2Proof
end

section
/-!
PROOFS. 30_encoding.md rule R58: the sequencer's decoder. A word decodes to the one internal name whose encoding it is.
-/

namespace Sys2Proof

theorem uopBare_eq_some {arg : Byte} {i j : Instr} : uopBare arg i = some j ↔ arg = 0#8 ∧ i = j := by
  by_cases h : arg = 0#8 <;> simp [uopBare, h]

/-- A byte is a bit's argument exactly when its bits 7:1 are 0, and its bit 0 is the bit. -/
theorem eq_bitArg_iff : ∀ (arg : Byte) (b : Bool),
    arg = bitArg b ↔ arg.extractLsb' 1 7 = 0#7 ∧ arg.getLsbD 0 = b := by decide

/-- A byte is a level's argument exactly when its bits 7:3 are 0, and its bits 2:0 are the level. -/
theorem eq_levelArg_iff (arg : Byte) (n : Bits3) :
    arg = n.setWidth 8 ↔ arg.extractLsb' 3 5 = 0#5 ∧ arg.extractLsb' 0 3 = n := by
  simp only [← BitVec.toNat_inj, BitVec.toNat_setWidth, BitVec.extractLsb'_toNat, Nat.shiftRight_eq_div_pow,
    BitVec.toNat_ofNat]
  omega

theorem uopBit_eq_some {arg : Byte} {mk : Bool → Instr} {j : Instr} :
    uopBit arg mk = some j ↔ ∃ b, arg = bitArg b ∧ mk b = j := by
  by_cases h : arg.extractLsb' 1 7 = 0#7 <;> simp [uopBit, eq_bitArg_iff, h]

theorem uopLevel_eq_some {arg : Byte} {mk : Bits3 → Instr} {j : Instr} :
    uopLevel arg mk = some j ↔ ∃ n : Bits3, arg = n.setWidth 8 ∧ mk n = j := by
  by_cases h : arg.extractLsb' 3 5 = 0#5 <;> simp [uopLevel, eq_levelArg_iff, h]

/-- The encoding of an internal name decodes to it. -/
theorem decodeUop_encode (i : Instr) (hi : i.hostIssuable = false) : decodeUop (encode i) = some i := by
  unfold decodeUop
  rw [opField_encode, immField_encode]
  cases i with
  | uStart | uStop | uRaiseclk | uAckphase | tFixmode | tAutomode => exact uopBare_eq_some.2 ⟨rfl, rfl⟩
  | uSendbit b | tPower b | tFramedata b | tFramewrite b => exact uopBit_eq_some.2 ⟨b, rfl, rfl⟩
  | tLeveldata n | tLevelwrite n => exact uopLevel_eq_some.2 ⟨n, rfl, rfl⟩
  | uTxbyte _ => rfl
  | setup | setBrightness _ | setLevel _ | setLevelPercent _ | turnOn | turnOff => cases hi
  | setBlinkOn | setBlinkOff | resetErrorCounters | readCounters => cases hi

/-- What a sequencer word decodes to is an internal name that has the word as its encoding. -/
theorem encode_of_decodeUop (w : CmdWord) (i : Instr) (h : decodeUop w = some i) :
    encode i = w ∧ i.hostIssuable = false := by
  unfold decodeUop at h
  dsimp only at h
  split at h
  case h_1 hop | h_2 hop | h_4 hop | h_6 hop | h_7 hop | h_10 hop =>
    obtain ⟨harg, rfl⟩ := uopBare_eq_some.1 h
    exact ⟨encode_eq_of_toNat harg.symm hop, rfl⟩
  case h_3 hop | h_9 hop | h_11 hop | h_13 hop =>
    obtain ⟨b, harg, rfl⟩ := uopBit_eq_some.1 h
    exact ⟨encode_eq_of_toNat harg.symm hop, rfl⟩
  case h_8 hop | h_12 hop =>
    obtain ⟨n, harg, rfl⟩ := uopLevel_eq_some.1 h
    exact ⟨encode_eq_of_toNat harg.symm hop, rfl⟩
  case h_5 hop =>
    cases h
    exact ⟨encode_eq_of_toNat rfl hop, rfl⟩
  case h_14 => cases h

/-- Settles O15: both decoders undo the encoder, and the encoder undoes them. -/
theorem decodeEncodeRoundTrip : Obligations.DecodeEncodeRoundTrip :=
  ⟨decode_encode, fun c w i h => ⟨encode_of_decode_ok c w i h, decode_ok c w i h⟩,
    decodeUop_encode, encode_of_decodeUop⟩

end Sys2Proof
end

section
/-!
PROOFS. The internal names as the machine runs them: from the sequencer slot (30_encoding.md rule R58), and the level
operations with every level (41_chip_commands.md rules R84 and R85).
-/

namespace Sys2Proof.Machine

/-- A word in the sequencer slot goes first (notes/assumptions/7.md). -/
theorem step_of_seqSlot {s : State} {w : CmdWord} (hslot : s.seqSlot = some w) : step s = stepUop w (clearSlot s) := by
  rw [step, hslot]

/-- Settles O6: the word is taken out of its slot and decoded by the sequencer's decoder. -/
theorem stepRunsSequencerWord : Obligations.StepRunsSequencerWord := by
  intro s w hslot
  rw [step_of_seqSlot hslot, stepUop]
  exact ⟨fun i hi => by rw [hi]; rfl, fun hnone => by rw [hnone]⟩

/-- T_LEVELDATA sends the level's pattern, whatever the level is (41_chip_commands.md rule R85). -/
theorem exec_tLeveldata (s : State) (n : Bits3) :
    exec (.tLeveldata n) s = .next (s.sent [[s.cfg.addrLevel, pattern n]]) :=
  congrArg Host.Outcome.next (txnLevelData_eq s n)

/-- T_LEVELWRITE selects fixed addressing first (41_chip_commands.md rule R84). -/
theorem exec_tLevelwrite (s : State) (n : Bits3) : exec (.tLevelwrite n) s = .next (s.sent (levelTxns s.cfg n)) :=
  congrArg Host.Outcome.next (levelWrite_eq s n)

/-- Settles O36: neither operation tests its level against MAX_LEVEL. -/
theorem levelOperationsRunBeyondMaxLevel : Obligations.LevelOperationsRunBeyondMaxLevel :=
  fun s n _ => ⟨exec_tLeveldata s n, exec_tLevelwrite s n⟩

end Sys2Proof.Machine
end

section
/-!
PROOFS. 30_encoding.md rules R60, R61 and R65: the assembler. A word that it writes passes the decoder's checks, because
each row of its table is a command, and an operand stands only where the command takes one.
-/

namespace Sys2Proof.Machine

/-- A line that gives a word is one command. -/
theorem asmCommand_of_assembleLine {line : List Char} {w : CmdWord} (h : assembleLine line = .ok (some w)) :
    ∃ name args, asmCommand name args = .ok w := by
  unfold assembleLine at h
  split at h
  · cases h
  · cases h
  · rename_i name args _ _
    cases hc : asmCommand name args with
    | error e => rw [hc] at h; cases h
    | ok v => rw [hc] at h; cases h; exact ⟨name, args, hc⟩

/-- `w` is a row of the assembler's table with an operand, which is 0 where the row takes none. -/
def IsAsmRowWord (w : CmdWord) : Prop :=
  ∃ row ∈ asmTable, ∃ x : Byte, w = asmWord row.2.1 x ∧ (row.2.2 = false → x = 0#8)

theorem exceptMap_eq_ok {ε α β : Type} {f : α → β} {r : Except ε α} {y : β} (h : r.map f = .ok y) :
    ∃ x, r = .ok x ∧ f x = y := by
  cases r with
  | error e => cases h
  | ok x => cases h; exact ⟨x, rfl, rfl⟩

/-- What a command assembles to is a row of the table with an operand; SET_BLINK stands for two rows (rule R61). -/
theorem isAsmRowWord_of_asmCommand {name : List Char} {args : List (List Char)} {w : CmdWord}
    (h : asmCommand name args = .ok w) : IsAsmRowWord w := by
  unfold asmCommand at h
  split at h
  · split at h
    · cases h
    · obtain ⟨b, -, rfl⟩ := exceptMap_eq_ok h
      split
      · exact ⟨("SET_BLINK_OFF", 0x08#8, false), by decide, 0#8, rfl, fun _ => rfl⟩
      · exact ⟨("SET_BLINK_ON", 0x07#8, false), by decide, 0#8, rfl, fun _ => rfl⟩
    · cases h
  · split at h
    · cases h
    · rename_i op hfind
      split at h
      · cases h
        exact ⟨_, List.mem_of_find?_eq_some hfind, 0#8, rfl, fun _ => rfl⟩
      · cases h
    · rename_i mnemonic op hfind
      split at h
      · cases h
        exact ⟨_, List.mem_of_find?_eq_some hfind, 0#8, rfl, fun _ => rfl⟩
      · obtain ⟨x, -, rfl⟩ := exceptMap_eq_ok h
        exact ⟨_, List.mem_of_find?_eq_some hfind, x, rfl, fun hno => by cases hno⟩
      · cases h

/-- Each row of the assembler's table is a command, and a row that takes an operand is none with a reserved field. -/
theorem asmTable_opcodes : ∀ row ∈ asmTable, 1 ≤ row.2.1.toNat ∧ row.2.1.toNat ≤ 10 ∧
    (row.2.2 = true → row.2.1.toNat ∉ [1, 5, 6, 7, 8, 9, 10]) := by decide

/-- Settles O19: a row's word passes the three checks of the decoder. -/
theorem assembledWordsDecode : Obligations.AssembledWordsDecode := by
  intro c line w hblink hcounters h
  obtain ⟨name, args, hc⟩ := asmCommand_of_assembleLine h
  obtain ⟨row, hrow, x, rfl, hx⟩ := isAsmRowWord_of_asmCommand hc
  obtain ⟨hlo, hhi, htakes⟩ := asmTable_opcodes row hrow
  have hop : opField (asmWord row.2.1 x) = row.2.1 := opField_append _ _
  have himm : immField (asmWord row.2.1 x) = x := immField_append _ _
  apply decode_of_checks
  · rw [OpcodeIllegal, hop]
    omega
  · simp [VariantAbsent, hblink, hcounters]
  · rintro ⟨hmem, hne⟩
    rw [hop] at hmem
    rw [himm] at hne
    cases ht : row.2.2 with
    | false => exact hne (congrArg BitVec.toNat (hx ht))
    | true => exact htakes ht hmem

/-- Settles O18: the assembler run on the lines of rule R65, and on the three commands without their operand. -/
theorem assemblerExamples : Obligations.AssemblerExamples :=
  ⟨by decide, by decide⟩

end Sys2Proof.Machine
end

section
/-!
PROOFS. 30_encoding.md rules R50, R51 and R53: the level pattern, the power byte and the brightness class.
-/

namespace Sys2Proof.Machine

/-- Settles O20: each row is a branch of the class map. -/
theorem brightnessClassTable : Obligations.BrightnessClassTable := by
  intro raw
  unfold brightClass
  refine ⟨fun h => if_pos h, fun h => ?_, fun h => ?_⟩
  · rw [if_neg (by omega), if_pos h]
  · rw [if_neg (by omega), if_neg (by omega)]

/-- The pattern as a number (rule R50). -/
theorem pattern_toNat : ∀ n : Bits3, (pattern n).toNat = 2 ^ n.toNat - 1 := by decide

/-- Settles O23: the pattern is 2^n - 1, whose bits below n are set. -/
theorem patternSetsExactlyTheLowBits : Obligations.PatternSetsExactlyTheLowBits := by
  intro n
  have hbit (i : Nat) : (pattern n).getLsbD i = decide (i < n.toNat) := by
    rw [BitVec.getLsbD, pattern_toNat, Nat.testBit_two_pow_sub_one]
  refine ⟨pattern_toNat n, hbit, ?_⟩
  rw [hbit, decide_eq_false_iff_not]
  omega

/-- REF's bases have bits 2:0 clear, so ORing a code is adding it (rule R51). -/
theorem refBase_or_code : ∀ k : Bits3, (0x88#8 ||| k.setWidth 8).toNat = 0x88 + k.toNat ∧
    (0x80#8 ||| k.setWidth 8).toNat = 0x80 + k.toNat := by decide

/-- Settles O24: the byte is its base ORed with the code, in REF their sum. -/
theorem powerByteValues : Obligations.PowerByteValues :=
  ⟨fun _ _ => ⟨rfl, rfl⟩, fun _ k => refBase_or_code k⟩

end Sys2Proof.Machine
end

section
/-!
PROOFS. 40_bus_engine.md rules R69 to R79: the internal names of the bus engine, each as one next state, then the
acknowledgment phase by its reads, and what a byte counts, leaves on the lines and records.
-/

namespace Sys2Proof.Machine

/-! The six U_ names. -/

section
variable (s : State)

theorem exec_uStart :
    exec .uStart s = .next (s.drive (traceStart s.cfg) (.known true) s.dioDir (.known false)) :=
  congrArg Host.Outcome.next (assertStart_eq s)

theorem exec_uStop : exec .uStop s = .next (s.drive (traceStop s.cfg) (.known true) s.dioDir (.known true)) :=
  congrArg Host.Outcome.next (assertStop_eq s)

theorem exec_uSendbit (b : Bool) : exec (.uSendbit b) s = .next
    (s.drive [.clkW false, waitQuarter s.cfg, .dioW b, waitQuarter s.cfg] (.known false) s.dioDir (.known b)) :=
  congrArg Host.Outcome.next (sendBit_eq s b)

theorem exec_uRaiseclk :
    exec .uRaiseclk s = .next (s.drive [.clkW true, waitHalf s.cfg] (.known true) s.dioDir s.dioLatch) :=
  congrArg Host.Outcome.next (raiseClock_eq s)

theorem exec_uTxbyte (v : Byte) : exec (.uTxbyte v) s = .next (s.sentByte v) :=
  congrArg Host.Outcome.next (congrArg Prod.snd (transmitByte_eq s v))

theorem exec_uAckphase : exec .uAckphase s = .next
    ((s.afterReads (ackReads s.cfg.ackSamples s.answer).length).drive
      (traceAck s.cfg (ackReads s.cfg.ackSamples s.answer)) (.known false) .out
      (latchAfterAck s.cfg (ackReads s.cfg.ackSamples s.answer))) :=
  congrArg Host.Outcome.next (congrArg Prod.snd (ackPhase_eq s))

end

/-- Settles O26: the obligation writes out the events of `traceStart`. -/
theorem startSequence : Obligations.StartSequence := exec_uStart

/-- Settles O27: the obligation writes out the events of `traceStop`. -/
theorem stopSequence : Obligations.StopSequence := exec_uStop

/-- Settles O28: neither half of a bit cycle looks at what DIO showed. -/
theorem sendBitAndRaiseClock : Obligations.SendBitAndRaiseClock :=
  fun s b => ⟨exec_uSendbit s b, exec_uRaiseclk s⟩

/-! How many reads the acknowledgment phase makes (rule R78). -/

/-- With every answer 1 the sampling goes on to its bound. -/
theorem ackReads_length_of_all_true (n : Nat) (ans : Nat → Bool) (h : ∀ j, j < n → ans j = true) :
    (ackReads n ans).length = n := by
  refine (ackReads_ends n ans).resolve_left fun hmem => ?_
  obtain ⟨k, hk, hzero⟩ := (ackOf_ackReads n ans).mp ((ackOf_eq_true _).mpr hmem)
  exact Bool.false_ne_true (hzero.symm.trans (h k hk))

/-- The first answer of 0 is the last read: no earlier read ends the sampling, and none is made after it. -/
theorem ackReads_length_of_first_false (n : Nat) (ans : Nat → Bool) (k : Nat) (hk : k < n)
    (hones : ∀ j, j < k → ans j = true) (hzero : ans k = false) : (ackReads n ans).length = k + 1 := by
  have hle : (ackReads n ans).length ≤ k + 1 := by
    by_contra hlong
    exact Bool.false_ne_true (hzero.symm.trans (ackReads_before_last n ans k (by omega)))
  have hgt : k < (ackReads n ans).length := by
    by_contra hshort
    obtain ⟨j, hj, hread⟩ := List.getElem_of_mem ((ackReads_ends n ans).resolve_right (by omega))
    rw [ackReads_getElem] at hread
    exact Bool.false_ne_true (hread.symm.trans (hones j (by omega)))
  omega

/-- Settles O29: the reads are `ackReads`, and the byte is acknowledged when a 0 is among them. -/
theorem acknowledgmentPhase : Obligations.AcknowledgmentPhase := by
  intro s
  refine ⟨ackReads s.cfg.ackSamples s.answer, ackReads_length_le _ _, ackReads_getElem _ _, ackReads_before_last _ _,
    ackReads_ends _ _, ?_⟩
  rw [exec_uAckphase]
  simp only [traceAck, latchAfterAck, ackOf_eq_true]
  rfl

/-- Settles O30: the reads in the phase's trace are `ackReads`, which the bound and the first 0 limit. -/
theorem acknowledgmentReadsBounded : Obligations.AcknowledgmentReadsBounded := by
  intro s hn
  obtain ⟨-, hreads⟩ := totals_ack s.cfg (ackReads s.cfg.ackSamples s.answer)
  refine ⟨_, traceAck s.cfg (ackReads s.cfg.ackSamples s.answer), exec_uAckphase s, drive_trace _ _ _ _ _, ?_⟩
  rw [hreads]
  exact ⟨rfl, ackReads_length_pos _ _ hn, ackReads_length_le _ _, ackReads_length_of_all_true _ _,
    ackReads_length_of_first_false _ _⟩

/-! What a byte leaves: the lines (rule R79) and the counters (rule R76). -/

section
variable (s : State)

@[simp] theorem sentByte_clkLvl (v : Byte) : (s.sentByte v).clkLvl = .known false := rfl

@[simp] theorem sentByte_dioDir (v : Byte) : (s.sentByte v).dioDir = .out := rfl

theorem sentByte_dioLatch (v : Byte) :
    (s.sentByte v).dioLatch = latchAfterAck s.cfg (ackReads s.cfg.ackSamples s.answer) := rfl

theorem sentByte_attCnt (v : Byte) :
    (s.sentByte v).attCnt = if s.cfg.hasCounters then s.attCnt + 1#32 else s.attCnt := by
  simp [State.sentByte, counted_attCnt]

theorem sentByte_errCnt (v : Byte) : (s.sentByte v).errCnt =
    if s.cfg.hasCounters && !ackOf (ackReads s.cfg.ackSamples s.answer) then s.errCnt + 1#32 else s.errCnt := by
  simp only [State.sentByte, drive_errCnt, afterReads_errCnt, counted_errCnt]
  cases s.cfg.hasCounters <;> cases ackOf (ackReads s.cfg.ackSamples s.answer) <;> simp

end

/-- Settles O31: the byte's trace is its eight bits, its acknowledgment phase and its diagnostic event. -/
theorem transmitByteInFull : Obligations.TransmitByteInFull := by
  intro s v
  refine ⟨exec_uTxbyte s v, ?_⟩
  rw [sentByte_trace]
  simp [traceByte, traceBits]

/-- Settles O32: one attempt is counted for every byte, and one error where no possible read answers 0. -/
theorem byteCountsAttemptAndNack : Obligations.ByteCountsAttemptAndNack := by
  intro s v
  have hack := ackOf_ackReads s.cfg.ackSamples s.answer
  refine ⟨s.sentByte v, exec_uTxbyte s v, ?_, fun hc => ⟨?_, ?_⟩, fun hc => ⟨?_, ?_⟩⟩
  · rw [transmitByte_eq]; exact hack
  · rw [sentByte_attCnt, if_pos hc]
  · rw [sentByte_errCnt, hc, Bool.true_and]
    cases h : ackOf (ackReads s.cfg.ackSamples s.answer) with
    | true => simp [hack.mp h]
    | false => simp [← hack, h]
  · simp [sentByte_attCnt, hc]
  · simp [sentByte_errCnt, hc]

/-! How many events a byte has (rule R78). -/

section
variable (c : Config) (v : Byte) (rs : List Bool)

theorem traceBits_length : (traceBits c v).length = 48 := rfl

theorem traceAck_length : (traceAck c rs).length = 10 + rs.length + if ackOf rs then 0 else 1 := by
  cases h : ackOf rs <;> simp [traceAck, h] <;> omega

theorem traceDiag_length : (traceDiag c v rs).length = if ackOf rs || !c.logEnabled then 0 else 1 := by
  unfold traceDiag
  split <;> rfl

/-- An acknowledged byte has no write of 0 and no diagnostic event. -/
theorem traceByte_length_of_ack (h : ackOf rs = true) : (traceByte c v rs).length = 58 + rs.length := by
  simp only [traceByte, List.length_append, traceBits_length, traceAck_length, traceDiag_length, h, Bool.true_or,
    if_true]
  omega

theorem traceByte_length_le : (traceByte c v rs).length ≤ 60 + rs.length := by
  simp only [traceByte, List.length_append, traceBits_length, traceAck_length, traceDiag_length]
  split <;> split <;> omega

end

/-- Settles O33: the latch follows the acknowledgment, and at most ACK_SAMPLES of the events are reads. -/
theorem bytePostconditions : Obligations.BytePostconditions := by
  intro s v
  have hack := ackOf_ackReads s.cfg.ackSamples s.answer
  refine ⟨s.sentByte v, _, exec_uTxbyte s v, sentByte_trace s v, rfl, rfl, fun hones => ?_, fun hzero => ?_, ?_,
    fun hn hzero => ?_⟩
  · have hnack : ¬ackOf (ackReads s.cfg.ackSamples s.answer) = true := fun h => by
      obtain ⟨k, hk, hzero⟩ := hack.mp h
      exact Bool.false_ne_true (hzero.symm.trans (hones k hk))
    rw [sentByte_dioLatch, latchAfterAck, if_neg hnack]
  · rw [sentByte_dioLatch, latchAfterAck, if_pos (hack.mpr hzero)]
  · have hevents := traceByte_length_le s.cfg v (ackReads s.cfg.ackSamples s.answer)
    have hreads := ackReads_length_le s.cfg.ackSamples s.answer
    omega
  · rw [traceByte_length_of_ack _ _ _ (hack.mpr ⟨0, hn, hzero⟩),
      ackReads_length_of_first_false _ _ 0 hn (fun _ hj => absurd hj (Nat.not_lt_zero _)) hzero]

end Sys2Proof.Machine
end

section
/-!
PROOFS. 40_bus_engine.md rule R80: the DIO events of a transaction at a high clock, part by part.
-/

namespace Sys2Proof.Machine

/-- The DIO events at a high clock of `m` bytes in a row: for each the return to output, and on a NACK the write of
0. -/
def ackDioEvents (c : Config) (m : Nat) (ans : Nat → Bool) : List Event :=
  (readsOf c m ans).flatMap fun rs => if ackOf rs then [.dioCfgOut] else [.dioCfgOut, .dioW false]

section
variable (l : Level) (c : Config) (bs : List Byte) (ans : Nat → Bool)

theorem dioEventsAtHigh_traceBytes : dioEventsAtHigh l (traceBytes c bs ans) = ackDioEvents c bs.length ans := by
  induction bs generalizing l ans with
  | nil => rfl
  | cons v vs ih =>
    rw [traceBytes_cons, dioEventsAtHigh_append, (high_byte l c v _).1, ih]
    rfl

/-- A byte leaves the clock low, and so do several. -/
theorem clkAfter_traceBytes (hb : bs ≠ []) : clkAfter l (traceBytes c bs ans) = .known false := by
  induction bs generalizing l ans with
  | nil => exact absurd rfl hb
  | cons v vs ih =>
    rw [traceBytes_cons, clkAfter_append, (high_byte l c v _).2]
    cases vs with
    | nil => rfl
    | cons w ws => exact ih _ _ (List.cons_ne_nil w ws)

/-- Only the start sequence's events depend on CLK_LVL before the transaction; the stop sequence begins at a low clock,
so that its first write is none of these events. -/
theorem dioEventsAtHigh_traceTxn (hb : bs ≠ []) : dioEventsAtHigh l (traceTxn c bs ans) =
    dioEventsAtHigh l (traceStart c) ++ ackDioEvents c bs.length ans ++ [.dioW true] := by
  have hstop : dioEventsAtHigh (.known false) (traceStop c) = [.dioW true] := rfl
  rw [traceTxn, dioEventsAtHigh_append, dioEventsAtHigh_append, dioEventsAtHigh_traceBytes, clkAfter_append,
    clkAfter_traceBytes _ c bs ans hb, hstop]

end

/-- Settles O54: a data bit follows the falling clock, and a transaction's DIO events at a high clock are those of its
start sequence, its acknowledgment phases and its stop sequence. -/
theorem dataChangesOnlyWhileClockLow : Obligations.DataChangesOnlyWhileClockLow := by
  constructor
  · intro s b
    exact ⟨_, _, exec_uSendbit s b, drive_trace _ _ _ _ _, rfl⟩
  · intro s bs hb
    refine ⟨traceTxn s.cfg bs s.answer, ?_, ?_, fun hl => ?_, fun hl => ?_⟩
    · rw [txn_eq s bs hb, sent_trace, traceTxns, traceTxns, List.append_nil]
    · rw [txn_eq s bs hb, sent_clkLvl]
    · rw [hl]; exact dioEventsAtHigh_traceTxn _ _ _ _ hb
    · rw [hl]; exact dioEventsAtHigh_traceTxn _ _ _ _ hb

end Sys2Proof.Machine
end

section
/-!
PROOFS. 41_chip_commands.md rules R83 to R89: what the T_ names send, and where the frame operations are absent.
-/

namespace Sys2Proof.Machine

variable {s : State}

/-- T_FIXMODE sends the fixed-addressing byte (rule R83). -/
theorem exec_tFixmode (s : State) : exec .tFixmode s = .next (s.sent [[s.cfg.cmdAddrFixed]]) :=
  congrArg Host.Outcome.next (txnFixMode_eq s)

/-- T_POWER sends the power byte of BRIGHT (rule R86). -/
theorem exec_tPower (s : State) (on : Bool) : exec (.tPower on) s = .next (s.sent (powerTxns s.cfg on s.bright)) :=
  congrArg Host.Outcome.next (txnPower_eq s on)

/-! Whether a frame operation runs depends on BLINK_SUPPORTED alone (rule R87). -/

theorem whenBlink_of_blinkSupported (op : State → State) (h : s.cfg.blinkSupported = true) :
    whenBlink op s = .next (op s) :=
  if_pos h

theorem whenBlink_of_not_blinkSupported (op : State → State) (h : s.cfg.blinkSupported = false) :
    whenBlink op s = .refused .frameOperationAbsent :=
  if_neg (ne_true_of_eq_false h)

/-- T_AUTOMODE sends the auto-increment byte (rule R88). -/
theorem exec_tAutomode (h : s.cfg.blinkSupported = true) :
    exec .tAutomode s = .next (s.sent [[s.cfg.cmdAddrAuto]]) := by
  rw [exec, execTAutomode, whenBlink_of_blinkSupported _ h, txnAutoMode_eq]

/-- T_FRAMEDATA sends the start address and the three data bytes (rule R89). -/
theorem exec_tFramedata (on : Bool) (h : s.cfg.blinkSupported = true) : exec (.tFramedata on) s =
    .next (s.sent [[s.cfg.addrFrame, frameData s.cfg on, frameData s.cfg on, frameData s.cfg on]]) := by
  rw [exec, execTFramedata, whenBlink_of_blinkSupported _ h, txnFrameData_eq]

/-- T_FRAMEWRITE selects auto-increment addressing first (rule R87). -/
theorem exec_tFramewrite (on : Bool) (h : s.cfg.blinkSupported = true) :
    exec (.tFramewrite on) s = .next (s.sent (frameTxns s.cfg on)) := by
  rw [exec, execTFramewrite, whenBlink_of_blinkSupported _ h, frameWrite_eq]

/-- Settles O35: the level's bound is not needed, since neither level operation tests it. -/
theorem levelAndPowerTransactions : Obligations.LevelAndPowerTransactions :=
  fun s n on => ⟨exec_tFixmode s, fun _ => ⟨exec_tLeveldata s n, exec_tLevelwrite s n⟩, exec_tPower s on⟩

/-- Settles O37: the obligation writes out `frameData` and `frameTxns`. -/
theorem frameTransactions : Obligations.FrameTransactions :=
  fun _ on h => ⟨exec_tAutomode h, exec_tFramedata on h, exec_tFramewrite on h⟩

/-- Settles O38: without blink none of the three operations is reached. -/
theorem frameOperationsAbsentWithoutBlink : Obligations.FrameOperationsAbsentWithoutBlink :=
  fun _ _ h =>
    ⟨whenBlink_of_not_blinkSupported _ h, whenBlink_of_not_blinkSupported _ h, whenBlink_of_not_blinkSupported _ h⟩

end Sys2Proof.Machine
end

section
/-!
PROOFS. 42_display_commands.md rules R91 to R102: each host command in full. A command that runs is its body on a
configured block; the bodies' equations then give what it stores and sends.
-/

namespace Sys2Proof.Machine

section
variable {s : State} {p : Bool}

/-! The guards, in the order of 60_exceptions.md rule R111. -/

theorem whenRunnable_of_absent (body : State → State) (hp : p = false) :
    whenRunnable p body s = refuse .variantAbsent s :=
  if_neg (ne_true_of_eq_false hp)

theorem whenRunnable_of_not_configured (body : State → State) (hp : p = true) (hc : s.configured = false) :
    whenRunnable p body s = refuse .notConfigured s := by
  rw [whenRunnable, if_pos hp, if_neg (ne_true_of_eq_false hc)]

theorem whenRunnable_of_configured (body : State → State) (hp : p = true) (hc : s.configured = true) :
    whenRunnable p body s = body s := by
  rw [whenRunnable, if_pos hp, if_pos hc]

/-! Storing a level, with the display off and on. -/

theorem storeLevel_of_dispOff (n : Bits3) (hoff : s.dispOn = false) : storeLevel n s = { s with level := n } := by
  rw [storeLevel_eq, if_neg (ne_true_of_eq_false hoff)]

theorem storeLevel_of_dispOn (n : Bits3) (hon : s.dispOn = true) :
    storeLevel n s = State.sent { s with level := n } (levelTxns s.cfg n) := by
  rw [storeLevel_eq, if_pos hon]

/-- The level that is stored is the one given, sent or not. -/
@[simp] theorem storeLevel_level (n : Bits3) (s : State) : (storeLevel n s).level = n := by
  rw [storeLevel_eq]
  split
  · exact sent_level _ _
  · rfl

/-! The commands on a configured block. -/

theorem exec_setBrightness (raw : Byte) (hc : s.configured = true) :
    exec (.setBrightness raw) s = .next (setBrightnessBody raw s) :=
  congrArg Host.Outcome.next (whenRunnable_of_configured _ rfl hc)

theorem exec_setLevel (n : Byte) (hc : s.configured = true) :
    exec (.setLevel n) s = .next (storeLevel (clampLevel s.cfg n.toNat) s) :=
  congrArg Host.Outcome.next (whenRunnable_of_configured (setLevelBody n) rfl hc)

theorem exec_setLevel_of_dispOff (n : Byte) (hc : s.configured = true) (hoff : s.dispOn = false) :
    exec (.setLevel n) s = .next { s with level := clampLevel s.cfg n.toNat } := by
  rw [exec_setLevel n hc, storeLevel_of_dispOff _ hoff]

theorem exec_setLevelPercent (p : Byte) (hc : s.configured = true) :
    exec (.setLevelPercent p) s = .next (storeLevel (percentLevel s.cfg p) s) :=
  congrArg Host.Outcome.next (whenRunnable_of_configured (setLevelPercentBody p) rfl hc)

theorem exec_turnOn (hc : s.configured = true) : exec .turnOn s = .next
    (State.sent { s with dispOn := true } (levelTxns s.cfg s.level ++ powerTxns s.cfg true s.bright)) :=
  congrArg Host.Outcome.next ((whenRunnable_of_configured _ rfl hc).trans (turnOnBody_eq s))

theorem exec_turnOff (hc : s.configured = true) :
    exec .turnOff s = .next (State.sent { s with dispOn := false } (powerTxns s.cfg false s.bright)) :=
  congrArg Host.Outcome.next ((whenRunnable_of_configured _ rfl hc).trans (turnOffBody_eq s))

/-- A blink command sends the frame, where the variant has it. -/
theorem whenRunnable_setBlinkBody (on : Bool) (hb : s.cfg.blinkSupported = true) (hc : s.configured = true) :
    whenRunnable s.cfg.blinkSupported (setBlinkBody on) s = State.sent { s with blinkOn := on } (frameTxns s.cfg on) :=
  (whenRunnable_of_configured _ hb hc).trans (setBlinkBody_eq s on)

end

/-- Settles O40: the body's equation with the pattern of level 0 and the code of TYPICAL written out. -/
theorem setupInitialises : Obligations.SetupInitialises := by
  intro s
  refine ⟨fun hc => ?_, fun hc => ?_⟩
  · rw [exec, execSetup, if_neg (ne_true_of_eq_false hc), setupBody_eq]
    rfl
  · rw [exec, execSetup, if_pos hc]

/-- Settles O41: by the display and by the hardened variant. -/
theorem setBrightnessStoresAndSends : Obligations.SetBrightnessStoresAndSends := by
  intro s raw k p
  refine ⟨fun hc hoff => ?_, fun hc hon hplain => ?_, fun hc hon hresend => ?_, fun hc => ?_⟩
  · rw [exec_setBrightness raw hc, setBrightnessBody_eq, if_neg (ne_true_of_eq_false hoff)]
  · rw [exec_setBrightness raw hc, setBrightnessBody_eq, if_pos hon, brightnessTxns,
      if_neg (ne_true_of_eq_false hplain)]
    rfl
  · rw [exec_setBrightness raw hc, setBrightnessBody_eq, if_pos hon, brightnessTxns, if_pos hresend]
    rfl
  · exact congrArg Host.Outcome.next (whenRunnable_of_not_configured _ rfl hc)

/-- Settles O42: the level stored is `clampLevel`. -/
theorem setLevelStoresAndSends : Obligations.SetLevelStoresAndSends := by
  intro s n
  refine ⟨clampLevel s.cfg n.toNat, clampLevel_toNat _ _, exec_setLevel_of_dispOff n, fun hc hon => ?_, fun hc => ?_⟩
  · rw [exec_setLevel n hc, storeLevel_of_dispOn _ hon]
    rfl
  · exact congrArg Host.Outcome.next (whenRunnable_of_not_configured _ rfl hc)

/-- Settles O43: the level stored is `percentLevel`. -/
theorem setLevelPercentStoresAndSends : Obligations.SetLevelPercentStoresAndSends := by
  intro s p
  refine ⟨percentLevel s.cfg p, percentLevel_toNat _ _, fun hc hoff => ?_, fun hc hon => ?_, fun hc => ?_⟩
  · rw [exec_setLevelPercent p hc, storeLevel_of_dispOff _ hoff]
  · rw [exec_setLevelPercent p hc, storeLevel_of_dispOn _ hon]
    rfl
  · exact congrArg Host.Outcome.next (whenRunnable_of_not_configured _ rfl hc)

/-- Settles O44: the obligation writes out `levelTxns` and `powerTxns`. -/
theorem turnOnAndTurnOff : Obligations.TurnOnAndTurnOff := by
  intro s
  refine ⟨exec_turnOn, exec_turnOff, fun hc => ⟨?_, ?_⟩⟩
  · exact congrArg Host.Outcome.next (whenRunnable_of_not_configured _ rfl hc)
  · exact congrArg Host.Outcome.next (whenRunnable_of_not_configured _ rfl hc)

/-- Settles O45: the obligation writes out `frameTxns`; the variant is checked before CONFIGURED. -/
theorem blinkCommandsSendTheFrame : Obligations.BlinkCommandsSendTheFrame := by
  intro s
  refine ⟨fun hc hb => ⟨?_, ?_⟩, fun hb => ⟨?_, ?_⟩, fun hb hc => ⟨?_, ?_⟩⟩
  · exact congrArg Host.Outcome.next (whenRunnable_setBlinkBody true hb hc)
  · exact congrArg Host.Outcome.next (whenRunnable_setBlinkBody false hb hc)
  · exact congrArg Host.Outcome.next (whenRunnable_of_absent _ hb)
  · exact congrArg Host.Outcome.next (whenRunnable_of_absent _ hb)
  · exact congrArg Host.Outcome.next (whenRunnable_of_not_configured _ hb hc)
  · exact congrArg Host.Outcome.next (whenRunnable_of_not_configured _ hb hc)

/-- Settles O46: neither counter command sends anything; the variant is checked before CONFIGURED. -/
theorem counterCommands : Obligations.CounterCommands := by
  intro s
  refine ⟨fun hc hh => ⟨?_, ?_⟩, fun hh => ⟨?_, ?_⟩, fun hh hc => ⟨?_, ?_⟩⟩
  · exact congrArg Host.Outcome.next (whenRunnable_of_configured resetErrorCountersBody hh hc)
  · exact congrArg Host.Outcome.next (whenRunnable_of_configured readCountersBody hh hc)
  · exact congrArg Host.Outcome.next (whenRunnable_of_absent _ hh)
  · exact congrArg Host.Outcome.next (whenRunnable_of_absent _ hh)
  · exact congrArg Host.Outcome.next (whenRunnable_of_not_configured _ hh hc)
  · exact congrArg Host.Outcome.next (whenRunnable_of_not_configured _ hh hc)

/-- Settles O5: `exec` leaves the position, which the step then moves on. -/
theorem stepRunsDecodedCommand : Obligations.StepRunsDecodedCommand := by
  intro s t w i hslot hfetch hdecode hexec
  obtain ⟨-, -, hposition, -⟩ := exec_kept i s t hexec
  simp only [step, hslot, fetch, hfetch, stepCommand, hdecode, hexec, advanceNext, advance, hposition]

end Sys2Proof.Machine
end

section
/-!
PROOFS. 42_display_commands.md rules R96, R104, R105 and R106: the brightness map against the codes, the percentage map,
the clamps, and the level that is kept while the display is off.
-/

namespace Sys2Proof.Machine

/-! Which bytes have which class (30_encoding.md rule R53). -/

theorem brightClass_eq_darkest_iff (raw : Byte) : brightClass raw = .darkest ↔ raw.toNat ≤ 1 := by
  unfold brightClass
  split_ifs <;> simp <;> omega

theorem brightClass_eq_typical_iff (raw : Byte) : brightClass raw = .typical ↔ raw.toNat = 2 := by
  unfold brightClass
  split_ifs <;> simp <;> omega

theorem brightClass_eq_brightest_iff (raw : Byte) : brightClass raw = .brightest ↔ 3 ≤ raw.toNat := by
  unfold brightClass
  split_ifs <;> simp <;> omega

/-- Settles O21: each class comes back exactly when its code lies in the class's row. -/
theorem brightnessIdempotentExactlyWhen : Obligations.BrightnessIdempotentExactlyWhen := by
  intro c
  have hbyte (k : Bits3) : (k.setWidth 8).toNat = k.toNat := BitVec.toNat_setWidth_of_le (by decide)
  have hdarkest : brightClass ((code c .darkest).setWidth 8) = .darkest ↔ c.codeDarkest.toNat ≤ 1 := by
    rw [brightClass_eq_darkest_iff, hbyte, code]
  have htypical : brightClass ((code c .typical).setWidth 8) = .typical ↔ c.codeTypical = 2#3 := by
    rw [brightClass_eq_typical_iff, hbyte, code, BitVec.toNat_eq]
    rfl
  have hbrightest : brightClass ((code c .brightest).setWidth 8) = .brightest ↔ 3 ≤ c.codeBrightest.toNat := by
    rw [brightClass_eq_brightest_iff, hbyte, code]
  constructor
  · intro h
    exact ⟨hdarkest.mp (h _), htypical.mp (h _), hbrightest.mp (h _)⟩
  · rintro ⟨hd, ht, hb⟩ k
    cases k with
    | darkest => exact hdarkest.mpr hd
    | typical => exact htypical.mpr ht
    | brightest => exact hbrightest.mpr hb

/-- The percentage map is monotone (rule R96). -/
theorem levelFromPercent_mono (c : Config) {p q : Nat} (h : p ≤ q) : levelFromPercent c p ≤ levelFromPercent c q :=
  Nat.div_le_div_right (Nat.add_le_add_right (Nat.mul_le_mul_right _ h) 50)

/-- A full percentage is the highest level (rule R96). -/
theorem levelFromPercent_hundred (c : Config) : levelFromPercent c 100 = c.maxLevel.toNat := by
  unfold levelFromPercent
  omega

/-- Settles O22: the laws of the map, and that a percentage's level needs no further clamp. -/
theorem levelFromPercentLaws : Obligations.LevelFromPercentLaws := by
  intro c
  refine ⟨?_, levelFromPercent_hundred c, fun _ _ => levelFromPercent_mono c, levelFromPercent_le c,
    percentLevel_toNat c⟩
  rw [levelFromPercent, Nat.zero_mul]

/-- Every percentage from 100 up gives the level of 100 (rule R95). -/
theorem percentLevel_of_hundred_le (c : Config) (p : Byte) (h : 100 ≤ p.toNat) :
    percentLevel c p = percentLevel c 100#8 := by
  apply BitVec.eq_of_toNat_eq
  rw [percentLevel_toNat, percentLevel_toNat, Nat.min_eq_right h]
  rfl

/-- No percentage gives a level above MAX_LEVEL. -/
theorem percentLevel_toNat_le (c : Config) (p : Byte) : (percentLevel c p).toNat ≤ c.maxLevel.toNat := by
  rw [percentLevel_toNat]
  exact levelFromPercent_le c _ (Nat.min_le_right _ _)

/-- A number from MAX_LEVEL up is clamped to it (rule R94). -/
theorem clampLevel_of_maxLevel_le (c : Config) (n : Nat) (h : c.maxLevel.toNat ≤ n) : clampLevel c n = c.maxLevel := by
  apply BitVec.eq_of_toNat_eq
  rw [clampLevel_toNat, Nat.min_eq_right h]

/-- Settles O47: the level stored is the clamped one, and the percentages from 100 up store one level. -/
theorem clampingLaws : Obligations.ClampingLaws := by
  intro s t hc
  refine ⟨fun n h => ?_, fun p h => ?_, fun h => ?_, fun p hp => ?_⟩
  · rw [exec_setLevel n hc] at h
    rw [← Host.Outcome.next.inj h, storeLevel_level, clampLevel_toNat]
    exact Nat.min_le_right _ _
  · rw [exec_setLevelPercent p hc] at h
    rw [← Host.Outcome.next.inj h, storeLevel_level]
    exact percentLevel_toNat_le _ _
  · rw [exec_setLevel _ hc] at h
    rw [← Host.Outcome.next.inj h, storeLevel_level]
    apply clampLevel_of_maxLevel_le
    rw [BitVec.toNat_ofNat]
    omega
  · rw [exec_setLevelPercent p hc, exec_setLevelPercent 100#8 hc, percentLevel_of_hundred_le _ p hp]

/-- What TURN_OFF leaves: a configured block, with the display off and the class as it was. -/
theorem exec_turnOff_leaves {s : State} (hc : s.configured = true) : ∃ t, exec .turnOff s = .next t ∧
    t.configured = true ∧ t.dispOn = false ∧ t.cfg = s.cfg ∧ t.bright = s.bright ∧
    t.trace = s.trace ++ traceTxns s.cfg (powerTxns s.cfg false s.bright) s.answer :=
  ⟨_, exec_turnOff hc, (sent_configured _ _).trans hc, sent_dispOn _ _, sent_cfg _ _, sent_bright _ _, sent_trace _ _⟩

/-- Settles O48: after TURN_OFF, SET_LEVEL only stores, and TURN_ON sends what is stored. -/
theorem retentionAcrossOffAndOn : Obligations.RetentionAcrossOffAndOn := by
  intro s k hc
  obtain ⟨t, hoff, hconfigured, hdispOff, hcfg, hbright, htrace⟩ := exec_turnOff_leaves hc
  rw [← hcfg, ← hbright]
  exact ⟨t, _, _, clampLevel t.cfg k.toNat, hoff, exec_setLevel_of_dispOff k hconfigured hdispOff,
    exec_turnOn hconfigured, clampLevel_toNat _ _, sent_level _ _, sent_bright _ _, sent_dispOn _ _,
    by rw [htrace, hcfg, hbright]; rfl, rfl, sent_trace _ _⟩

end Sys2Proof.Machine
end

section
/-!
PROOFS. 42_display_commands.md rule R103: acknowledgments change nothing that is sent. Whatever the oracle, a host
command first makes the same state, the oracle apart, and then sends the same transactions; and without what an answer
may change in it the trace of a transaction is a function of its bytes.
-/

namespace Sys2Proof.Machine

/-! The trace of a transaction without the answers. -/

/-- The events of an acknowledgment phase that no answer changes: its reads and its NACK-path `D0` are left out
(40_bus_engine.md rule R74). -/
def ackWithoutAnswers (c : Config) : List Event :=
  [.clkW false, waitQuarter c, .dioW true, waitQuarter c, .dioCfgIn, .clkW true, waitQuarter c] ++ [.dioCfgOut] ++
    [waitQuarter c, .clkW false]

/-- The events of a byte that no answer changes: its diagnostic event is left out (rule R77). -/
def byteWithoutAnswers (c : Config) (v : Byte) : List Event := traceBits c v ++ ackWithoutAnswers c

/-- The events of a transaction that no answer changes. -/
def txnWithoutAnswers (c : Config) (bs : List Byte) : List Event :=
  traceStart c ++ bs.flatMap (byteWithoutAnswers c) ++ traceStop c

section
variable (c : Config) (es : List Event)

theorem withoutAnswers_reads (restored : Bool) (rs : List Bool) :
    withoutAnswers restored (rs.map .dioR ++ es) = withoutAnswers restored es := by
  induction rs with
  | nil => rfl
  | cons b rs ih => exact ih

/-- A bit is written after a wait, so it is no NACK-path `D0`. -/
theorem withoutAnswers_bit (b : Bool) :
    withoutAnswers false (traceBit c b ++ es) = traceBit c b ++ withoutAnswers false es := rfl

theorem withoutAnswers_bits (v : Byte) :
    withoutAnswers false (traceBits c v ++ es) = traceBits c v ++ withoutAnswers false es := by
  simp only [traceBits, List.flatMap_cons, List.flatMap_nil, List.append_assoc, List.nil_append, withoutAnswers_bit]

/-- Of an acknowledgment phase only the reads and the NACK-path `D0` go. -/
theorem withoutAnswers_ack (rs : List Bool) :
    withoutAnswers false (traceAck c rs ++ es) = ackWithoutAnswers c ++ withoutAnswers false es := by
  have hbefore (fs : List Event) : withoutAnswers false ([.clkW false, waitQuarter c, .dioW true, waitQuarter c,
      .dioCfgIn, .clkW true, waitQuarter c] ++ fs) = [.clkW false, waitQuarter c, .dioW true, waitQuarter c, .dioCfgIn,
      .clkW true, waitQuarter c] ++ withoutAnswers false fs := rfl
  have hrestore (fs : List Event) :
      withoutAnswers false ([.dioCfgOut] ++ fs) = [.dioCfgOut] ++ withoutAnswers true fs := rfl
  have hlow : withoutAnswers true ((if ackOf rs then [] else [.dioW false]) ++ ([waitQuarter c, .clkW false] ++ es)) =
      [waitQuarter c, .clkW false] ++ withoutAnswers false es := by
    split <;> rfl
  simp only [traceAck, ackWithoutAnswers, List.append_assoc, hbefore, withoutAnswers_reads, hrestore, hlow]

theorem withoutAnswers_diag (v : Byte) (rs : List Bool) :
    withoutAnswers false (traceDiag c v rs ++ es) = withoutAnswers false es := by
  unfold traceDiag
  split <;> rfl

theorem withoutAnswers_byte (v : Byte) (rs : List Bool) :
    withoutAnswers false (traceByte c v rs ++ es) = byteWithoutAnswers c v ++ withoutAnswers false es := by
  simp only [traceByte, byteWithoutAnswers, List.append_assoc, withoutAnswers_bits, withoutAnswers_ack,
    withoutAnswers_diag]

theorem withoutAnswers_bytes (bs : List Byte) (ans : Nat → Bool) :
    withoutAnswers false (traceBytes c bs ans ++ es) =
      bs.flatMap (byteWithoutAnswers c) ++ withoutAnswers false es := by
  induction bs generalizing ans with
  | nil => rfl
  | cons v vs ih =>
    rw [traceBytes_cons, List.append_assoc, withoutAnswers_byte, ih, List.flatMap_cons, List.append_assoc]

/-- The start sequence begins with a write of 1, which is kept whatever came before it. -/
theorem withoutAnswers_txn (restored : Bool) (bs : List Byte) (ans : Nat → Bool) :
    withoutAnswers restored (traceTxn c bs ans ++ es) = txnWithoutAnswers c bs ++ withoutAnswers false es := by
  have hstart (fs : List Event) : withoutAnswers restored (traceStart c ++ fs) =
      traceStart c ++ withoutAnswers false fs := by
    cases restored <;> rfl
  have hstop : withoutAnswers false (traceStop c ++ es) = traceStop c ++ withoutAnswers false es := rfl
  simp only [traceTxn, txnWithoutAnswers, List.append_assoc, hstart, withoutAnswers_bytes, hstop]

/-- Transactions in a row leave the same events whatever was answered. -/
theorem withoutAnswers_txns (restored : Bool) (ts : List (List Byte)) (ans : Nat → Bool) :
    withoutAnswers restored (traceTxns c ts ans) = ts.flatMap (txnWithoutAnswers c) := by
  induction ts generalizing restored ans with
  | nil => rfl
  | cons bs ts ih => rw [traceTxns, withoutAnswers_txn, ih, List.flatMap_cons]

end

/-! A host command under any oracle. -/

/-- `s` with the oracle's list and read counter set. -/
def State.withOracle (s : State) (answers : List Bool) (reads : Nat) : State :=
  { s with dioAnswers := answers, dioReads := reads }

/-- `s` after the transactions `ts`; where there are none, the lines are not touched. -/
def State.transmit (s : State) : List (List Byte) → State
  | [] => s
  | bs :: ts => s.sent (bs :: ts)

theorem transmit_of_ne_nil (s : State) {ts : List (List Byte)} (h : ts ≠ []) : s.transmit ts = s.sent ts := by
  cases ts with
  | nil => exact absurd rfl h
  | cons bs ts => rfl

theorem transmit_trace (s : State) (ts : List (List Byte)) :
    (s.transmit ts).trace = s.trace ++ traceTxns s.cfg ts s.answer := by
  cases ts with
  | nil => exact (List.append_nil _).symm
  | cons bs ts => exact sent_trace s _

/-- Under another oracle the same registers are left but for ERR_CNT, and the same results. -/
theorem transmit_withOracle (u : State) (ts : List (List Byte)) (answers : List Bool) (reads : Nat) :
    { ((u.withOracle answers reads).transmit ts).registers with errCnt := (u.transmit ts).errCnt } =
      (u.transmit ts).registers ∧
    ((u.withOracle answers reads).transmit ts).results = (u.transmit ts).results := by
  cases ts with
  | nil => exact ⟨rfl, rfl⟩
  | cons bs ts => simp [State.transmit, State.registers, sent_attCnt, State.withOracle]

/-- At `s`, `f` makes the state `u` and transmits `ts`, whatever the oracle. To the trace `u` adds at most that the
lines became outputs, as SETUP's does (rule R92). -/
def TransmitsWhateverAnswered (f : State → State) (s : State) : Prop :=
  ∃ (u : State) (pre : List Event) (ts : List (List Byte)),
    (∀ answers reads, f (s.withOracle answers reads) = (u.withOracle answers reads).transmit ts) ∧
    u.trace = s.trace ++ pre ∧ (pre = [] ∨ pre = [.clkCfgOut, .dioCfgOut]) ∧ ∀ t ∈ ts, t ≠ []

section
variable {s : State} {f : State → State} (u : State) (ts : List (List Byte))

/-- It is enough that `f` agrees at `s`, under every oracle, with an operation that does. -/
theorem TransmitsWhateverAnswered.congr {g : State → State} (hg : TransmitsWhateverAnswered g s)
    (h : ∀ answers reads, f (s.withOracle answers reads) = g (s.withOracle answers reads)) :
    TransmitsWhateverAnswered f s := by
  obtain ⟨u, pre, ts, heq, hrest⟩ := hg
  exact ⟨u, pre, ts, fun answers reads => (h answers reads).trans (heq answers reads), hrest⟩

/-- An operation that writes registers and transmits nothing. -/
theorem transmits_nothing (hf : ∀ answers reads, f (s.withOracle answers reads) = u.withOracle answers reads)
    (hu : u.trace = s.trace) : TransmitsWhateverAnswered f s :=
  ⟨u, [], [], hf, hu.trans (List.append_nil _).symm, .inl rfl, by simp⟩

/-- An operation that writes registers and then transmits. -/
theorem transmits_of_sent
    (hf : ∀ answers reads, f (s.withOracle answers reads) = (u.withOracle answers reads).sent ts)
    (hu : u.trace = s.trace) (hts : ts ≠ []) (ht : ∀ t ∈ ts, t ≠ []) : TransmitsWhateverAnswered f s :=
  ⟨u, [], ts, fun _ _ => (hf _ _).trans (transmit_of_ne_nil _ hts).symm, hu.trans (List.append_nil _).symm, .inl rfl,
    ht⟩

end

theorem setupBody_transmits (s : State) : TransmitsWhateverAnswered setupBody s :=
  ⟨State.record (setupRegisters s) [.clkCfgOut, .dioCfgOut], _, setupTxns s.cfg,
    fun answers reads => setupBody_eq (s.withOracle answers reads), record_trace _ _, .inr rfl,
    append_ne_nil_of_forall (levelTxns_ne_nil _ _) (powerTxns_ne_nil _ _ _)⟩

theorem setBrightnessBody_transmits (raw : Byte) (s : State) : TransmitsWhateverAnswered (setBrightnessBody raw) s := by
  rcases Bool.eq_false_or_eq_true s.dispOn with hon | hoff
  · refine transmits_of_sent { s with bright := brightClass raw } (brightnessTxns s.cfg s.level (brightClass raw))
      (fun answers reads => ?_) rfl ?_ (brightnessTxns_ne_nil _ _ _)
    · exact (setBrightnessBody_eq (s.withOracle answers reads) raw).trans (if_pos hon)
    · simp [brightnessTxns, powerTxns]
  · exact transmits_nothing { s with bright := brightClass raw } (fun answers reads =>
      (setBrightnessBody_eq (s.withOracle answers reads) raw).trans (if_neg (ne_true_of_eq_false hoff))) rfl

theorem storeLevel_transmits (n : Bits3) (s : State) : TransmitsWhateverAnswered (storeLevel n) s := by
  rcases Bool.eq_false_or_eq_true s.dispOn with hon | hoff
  · exact transmits_of_sent { s with level := n } (levelTxns s.cfg n) (fun _ _ => storeLevel_of_dispOn n hon) rfl
      (List.cons_ne_nil _ _) (levelTxns_ne_nil _ _)
  · exact transmits_nothing { s with level := n } (fun _ _ => storeLevel_of_dispOff n hoff) rfl

theorem setLevelBody_transmits (n : Byte) (s : State) : TransmitsWhateverAnswered (setLevelBody n) s :=
  (storeLevel_transmits (clampLevel s.cfg n.toNat) s).congr fun _ _ => rfl

theorem setLevelPercentBody_transmits (p : Byte) (s : State) : TransmitsWhateverAnswered (setLevelPercentBody p) s :=
  (storeLevel_transmits (percentLevel s.cfg p) s).congr fun _ _ => rfl

theorem turnOnBody_transmits (s : State) : TransmitsWhateverAnswered turnOnBody s :=
  transmits_of_sent { s with dispOn := true } (levelTxns s.cfg s.level ++ powerTxns s.cfg true s.bright)
    (fun answers reads => turnOnBody_eq (s.withOracle answers reads)) rfl
    (List.cons_ne_nil _ _) (append_ne_nil_of_forall (levelTxns_ne_nil _ _) (powerTxns_ne_nil _ _ _))

theorem turnOffBody_transmits (s : State) : TransmitsWhateverAnswered turnOffBody s :=
  transmits_of_sent { s with dispOn := false } (powerTxns s.cfg false s.bright)
    (fun answers reads => turnOffBody_eq (s.withOracle answers reads)) rfl
    (List.cons_ne_nil _ _) (powerTxns_ne_nil _ _ _)

theorem setBlinkBody_transmits (on : Bool) (s : State) : TransmitsWhateverAnswered (setBlinkBody on) s :=
  transmits_of_sent { s with blinkOn := on } (frameTxns s.cfg on)
    (fun answers reads => setBlinkBody_eq (s.withOracle answers reads) on) rfl
    (List.cons_ne_nil _ _) (frameTxns_ne_nil _ _)

theorem resetErrorCountersBody_transmits (s : State) : TransmitsWhateverAnswered resetErrorCountersBody s :=
  transmits_nothing (resetErrorCountersBody s) (fun _ _ => rfl) rfl

theorem readCountersBody_transmits (s : State) : TransmitsWhateverAnswered readCountersBody s :=
  transmits_nothing (readCountersBody s) (fun _ _ => rfl) rfl

theorem refuse_transmits (r : RefuseReason) (s : State) : TransmitsWhateverAnswered (refuse r) s :=
  transmits_nothing (refuse r s) (fun _ _ => rfl) rfl

/-- Whether a command runs does not depend on the oracle. -/
theorem whenRunnable_transmits (p : Bool) {body : State → State} {s : State} (hb : TransmitsWhateverAnswered body s) :
    TransmitsWhateverAnswered (whenRunnable p body) s := by
  cases p with
  | false => exact refuse_transmits .variantAbsent s
  | true =>
    rcases Bool.eq_false_or_eq_true s.configured with hc | hc
    · exact hb.congr fun _ _ => whenRunnable_of_configured body rfl hc
    · exact (refuse_transmits .notConfigured s).congr fun _ _ => whenRunnable_of_not_configured body rfl hc

/-- Every host command is such an operation at `s`, refused or not. -/
theorem exec_host_transmits (i : Instr) (s : State) (hi : i.hostIssuable = true) :
    ∃ f, TransmitsWhateverAnswered f s ∧
      ∀ answers reads, exec i (s.withOracle answers reads) = .next (f (s.withOracle answers reads)) := by
  cases i with
  | setup =>
    rcases Bool.eq_false_or_eq_true s.configured with hc | hc
    · exact ⟨_, refuse_transmits .alreadyConfigured s, fun _ _ => congrArg Host.Outcome.next (if_pos hc)⟩
    · exact ⟨_, setupBody_transmits s, fun _ _ => congrArg Host.Outcome.next (if_neg (ne_true_of_eq_false hc))⟩
  | setBrightness raw => exact ⟨_, whenRunnable_transmits true (setBrightnessBody_transmits raw s), fun _ _ => rfl⟩
  | setLevel n => exact ⟨_, whenRunnable_transmits true (setLevelBody_transmits n s), fun _ _ => rfl⟩
  | setLevelPercent p => exact ⟨_, whenRunnable_transmits true (setLevelPercentBody_transmits p s), fun _ _ => rfl⟩
  | turnOn => exact ⟨_, whenRunnable_transmits true (turnOnBody_transmits s), fun _ _ => rfl⟩
  | turnOff => exact ⟨_, whenRunnable_transmits true (turnOffBody_transmits s), fun _ _ => rfl⟩
  | setBlinkOn =>
    exact ⟨_, whenRunnable_transmits s.cfg.blinkSupported (setBlinkBody_transmits true s), fun _ _ => rfl⟩
  | setBlinkOff =>
    exact ⟨_, whenRunnable_transmits s.cfg.blinkSupported (setBlinkBody_transmits false s), fun _ _ => rfl⟩
  | resetErrorCounters =>
    exact ⟨_, whenRunnable_transmits s.cfg.hasCounters (resetErrorCountersBody_transmits s), fun _ _ => rfl⟩
  | readCounters =>
    exact ⟨_, whenRunnable_transmits s.cfg.hasCounters (readCountersBody_transmits s), fun _ _ => rfl⟩
  | uStart | uStop | uSendbit _ | uRaiseclk | uTxbyte _ | uAckphase => cases hi
  | tFixmode | tLeveldata _ | tPower _ | tAutomode | tFramedata _ | tLevelwrite _ | tFramewrite _ => cases hi

/-- Configuring the lines before a transmission leaves the trace between two transactions. -/
theorem betweenTxns_append_of_cfgOut {es pre : List Event} (hpre : pre = [] ∨ pre = [.clkCfgOut, .dioCfgOut])
    (h : betweenTxns es) : betweenTxns (es ++ pre) := by
  rcases hpre with rfl | rfl
  · rwa [List.append_nil]
  · rwa [betweenTxns_iff_free, monitor_append_cfgOut]

/-- After the lines were configured, or without that, transactions leave the same events whatever was answered. -/
theorem withoutAnswers_append_txns {pre : List Event} (c : Config) (ts : List (List Byte)) (ans ans' : Nat → Bool)
    (hpre : pre = [] ∨ pre = [.clkCfgOut, .dioCfgOut]) :
    withoutAnswers false (pre ++ traceTxns c ts ans') = withoutAnswers false (pre ++ traceTxns c ts ans) := by
  rcases hpre with rfl | rfl
  · simp only [List.nil_append, withoutAnswers_txns]
  · simp only [List.cons_append, List.nil_append, withoutAnswers, withoutAnswers_txns]

/-- Settles O51: under both oracles the command sends the same transactions from the same state. -/
theorem acknowledgmentsChangeNothingSent : Obligations.AcknowledgmentsChangeNothingSent := by
  intro i s t answers reads hi h
  obtain ⟨f, ⟨u, pre, ts, hf, htrace, hpre, hts⟩, hexec⟩ := exec_host_transmits i s hi
  have hrun (as : List Bool) (n : Nat) : exec i (s.withOracle as n) = .next ((u.withOracle as n).transmit ts) :=
    (hexec as n).trans (congrArg Host.Outcome.next (hf as n))
  obtain rfl := Host.Outcome.next.inj (h.symm.trans (hrun s.dioAnswers s.dioReads))
  have happend (as : List Bool) (n : Nat) : ((u.withOracle as n).transmit ts).trace =
      s.trace ++ (pre ++ traceTxns u.cfg ts (u.withOracle as n).answer) := by
    rw [transmit_trace, ← List.append_assoc, ← htrace]
    rfl
  have hsent (hs : betweenTxns s.trace) (as : List Bool) (n : Nat) :
      sentTxns ((u.withOracle as n).transmit ts).trace = sentTxns (s.trace ++ pre) ++ ts := by
    rw [happend, ← List.append_assoc]
    exact (sentTxns_append_traceTxns _ _ _ _ (betweenTxns_append_of_cfgOut hpre hs) hts).1
  obtain ⟨hregisters, hresults⟩ := transmit_withOracle (u.withOracle s.dioAnswers s.dioReads) ts answers reads
  exact ⟨_, _, _, hrun answers reads, happend _ _, happend _ _,
    withoutAnswers_append_txns _ _ _ _ hpre, fun hs => (hsent hs _ _).trans (hsent hs _ _).symm, hregisters, hresults⟩

end Sys2Proof.Machine
end

section
/-!
PROOFS. 60_exceptions.md rules R110, R116 and R126: the idle step, no stop, and what a refusal does.
-/

namespace Sys2Proof.Machine

/-- Settles O7: past the end of the command list there is no word to fetch. -/
theorem stepIdleWithoutCommand : Obligations.StepIdleWithoutCommand := by
  intro s hslot hend
  have hfetch : fetch s = none := List.getElem?_eq_none hend
  simp only [step, hslot, hfetch]

/-- No step fills the sequencer slot. -/
theorem step_keeps_slotEmpty (s t : State) (hslot : s.seqSlot = none) (h : step s = .next t) : t.seqSlot = none := by
  rcases step_cases s t h with ⟨w, i, hw, -, -⟩ | ⟨-, -, rfl⟩ | ⟨w, r, -, -, -, rfl⟩ | ⟨w, i, u, -, -, -, hu, rfl⟩
  · exact absurd (hw.symm.trans hslot) (by simp)
  · exact hslot
  · exact hslot
  · obtain ⟨-, -, -, hkept⟩ := exec_kept i s u hu
    exact hkept.trans hslot

/-- Settles O8: with the slot empty a step gives a next state, and leaves the slot empty. -/
theorem noCommandStopsTheBlock : Obligations.NoCommandStopsTheBlock := by
  intro s hslot
  obtain ⟨t, ht⟩ := step_next_of_slotEmpty s hslot
  exact ⟨t, ht, step_keeps_slotEmpty s t hslot ht⟩

/-- A word that the decoder refuses is taken from the port with the refusal (30_encoding.md rules R54 to R56). -/
theorem step_of_decode_error {s : State} {w : CmdWord} {r : RefuseReason} (hslot : s.seqSlot = none)
    (hfetch : s.program[s.position]? = some w) (hd : decode s.cfg w = .error r) :
    step s = .next (advance (refuse r s)) := by
  simp only [step, hslot, fetch, hfetch, stepCommand, hd]

/-- A command before SETUP is refused, where its variant is present (42_display_commands.md rule R91). -/
theorem exec_of_not_configured {s : State} {i : Instr} (hi : i.hostIssuable = true) (hp : i.present s.cfg = true)
    (hne : i ≠ .setup) (hc : s.configured = false) : exec i s = .next (refuse .notConfigured s) := by
  obtain ⟨t, ht⟩ := exec_host_next i s hi
  rcases exec_host_cases s i t hi ht with
    ⟨habsent, -⟩ | ⟨-, -, -, rfl⟩ | ⟨hsetup, -⟩ | ⟨hsetup, -⟩ | ⟨-, hconfigured, -⟩
  · exact absurd hp (ne_true_of_eq_false habsent)
  · exact ht
  · exact absurd hsetup hne
  · exact absurd hsetup hne
  · exact absurd hconfigured (ne_true_of_eq_false hc)

/-- The refusal mark of `s` stays in `t`: REFUSED is not cleared, and a recorded reason is not changed. -/
def MarkStays (s t : State) : Prop :=
  (s.refused = true → t.refused = true) ∧ ∀ r, s.refuseReason = some r → t.refuseReason = some r

/-- What leaves both registers leaves the mark. -/
theorem markStays_of_eq {s t : State} (hrefused : t.refused = s.refused) (hreason : t.refuseReason = s.refuseReason) :
    MarkStays s t :=
  ⟨hrefused.trans, fun _ => hreason.trans⟩

/-- A refusal records its reason only where none is recorded. -/
theorem markStays_refuse (r : RefuseReason) (s : State) : MarkStays s (refuse r s) :=
  ⟨fun _ => rfl, fun r' hr => by rw [refuse_refuseReason, hr, if_neg (Option.some_ne_none r')]⟩

/-- No instruction clears the mark: only a refusal writes it. -/
theorem exec_markStays (i : Instr) (s t : State) (h : exec i s = .next t) : MarkStays s t := by
  rcases Bool.eq_false_or_eq_true i.hostIssuable with hh | hh
  · rcases (exec_host_cases s i t hh h).refused_or_setup_or_effect with ⟨r, rfl⟩ | ⟨-, rfl⟩ | ⟨-, he⟩
    · exact markStays_refuse r s
    · exact markStays_of_eq (sent_refused _ _) (sent_refuseReason _ _)
    · obtain ⟨-, -, hrefused, hreason⟩ := he.keeps_mark
      exact markStays_of_eq hrefused hreason
  · obtain ⟨-, -, -, -, -, -, hrefused, hreason, -⟩ := protocolLayersKeepDisplayState i s t hh h
    exact markStays_of_eq hrefused hreason

/-- No step clears the mark. -/
theorem step_markStays (s t : State) (h : step s = .next t) : MarkStays s t := by
  rcases step_cases s t h with ⟨w, i, -, -, hi⟩ | ⟨-, -, rfl⟩ | ⟨w, r, -, -, -, rfl⟩ | ⟨w, i, u, -, -, -, hu, rfl⟩
  · exact exec_markStays i (clearSlot s) t hi
  · exact markStays_of_eq rfl rfl
  · exact markStays_refuse r s
  · exact exec_markStays i s u hu

/-- Settles O13: the decoder's refusals by the step, those of rule R91 by the meaning that the step runs. -/
theorem refusalChangesOnlyTheMark : Obligations.RefusalChangesOnlyTheMark := by
  refine ⟨fun s w r hslot hfetch hrefused => ?_, step_markStays⟩
  rcases hrefused with hd | ⟨i, hd, hne, hc, rfl⟩ | ⟨hd, hc, rfl⟩
  · exact step_of_decode_error hslot hfetch hd
  · obtain ⟨hi, hp⟩ := decode_ok _ _ _ hd
    exact stepRunsDecodedCommand s _ w i hslot hfetch hd (exec_of_not_configured hi hp hne hc)
  · obtain ⟨-, hsecond⟩ := setupInitialises s
    exact stepRunsDecodedCommand s _ w .setup hslot hfetch hd (hsecond hc)

end Sys2Proof.Machine
end

section
/-!
PROOFS. 60_exceptions.md rule R124: the diagnostic channel. A trace without its DIAG_NACK events is the trace that the
configuration without the channel gives, so under both settings of LOG_ENABLED the same trace is left without them.
-/

namespace Sys2Proof.Machine

/-! The trace of a transaction without its diagnostic events. -/

/-- The configuration `c` with LOG_ENABLED set to `b`. -/
def cfgWithLog (c : Config) (b : Bool) : Config := { c with logEnabled := b }

/-- Events of the bus alone are all kept. -/
theorem filter_notDiag_eq_self {es : List Event} (h : es.all Event.notDiag = true) : es.filter Event.notDiag = es :=
  List.filter_eq_self.mpr (List.all_eq_true.mp h)

section
variable (c : Config)

theorem notDiag_traceBits (v : Byte) : (traceBits c v).all Event.notDiag = true := rfl

theorem notDiag_traceAck (rs : List Bool) : (traceAck c rs).all Event.notDiag = true := by
  have hreads : (rs.map Event.dioR).all Event.notDiag = true := by simp [Event.notDiag]
  have hlow : (if ackOf rs then [] else [Event.dioW false]).all Event.notDiag = true := by split <;> rfl
  simp only [traceAck, List.all_append, hreads, hlow]
  rfl

/-- The diagnostic event is all that goes. -/
theorem filter_traceDiag (v : Byte) (rs : List Bool) : (traceDiag c v rs).filter Event.notDiag = [] := by
  unfold traceDiag
  split <;> rfl

/-- With the channel off there is no diagnostic event. -/
theorem traceDiag_cfgWithLog_false (v : Byte) (rs : List Bool) : traceDiag (cfgWithLog c false) v rs = [] := by
  simp [traceDiag, cfgWithLog]

theorem filter_traceByte (v : Byte) (rs : List Bool) :
    (traceByte c v rs).filter Event.notDiag = traceByte (cfgWithLog c false) v rs := by
  rw [traceByte, traceByte, List.filter_append, List.filter_append, filter_notDiag_eq_self (notDiag_traceBits c v),
    filter_notDiag_eq_self (notDiag_traceAck c rs), filter_traceDiag, traceDiag_cfgWithLog_false]
  rfl

theorem filter_traceBytes (bs : List Byte) (ans : Nat → Bool) :
    (traceBytes c bs ans).filter Event.notDiag = traceBytes (cfgWithLog c false) bs ans := by
  induction bs generalizing ans with
  | nil => rfl
  | cons v vs ih =>
    rw [traceBytes_cons, traceBytes_cons, List.filter_append, filter_traceByte, ih]
    rfl

theorem filter_traceTxn (bs : List Byte) (ans : Nat → Bool) :
    (traceTxn c bs ans).filter Event.notDiag = traceTxn (cfgWithLog c false) bs ans := by
  rw [traceTxn, traceTxn, List.filter_append, List.filter_append, filter_traceBytes]
  rfl

/-- How many reads a transaction makes does not depend on the channel. -/
theorem readCount_cfgWithLog (b : Bool) (m : Nat) (ans : Nat → Bool) :
    readCount (cfgWithLog c b) m ans = readCount c m ans := by
  induction m generalizing ans with
  | zero => rfl
  | succ m ih =>
    rw [readCount_succ, readCount_succ, ih]
    rfl

/-- How many bytes are NACKed does not depend on the channel. -/
theorem nackCount_cfgWithLog (b : Bool) (m : Nat) (ans : Nat → Bool) :
    nackCount (cfgWithLog c b) m ans = nackCount c m ans := by
  induction m generalizing ans with
  | zero => rfl
  | succ m ih =>
    rw [nackCount_succ, nackCount_succ, ih]
    rfl

theorem filter_traceTxns (ts : List (List Byte)) (ans : Nat → Bool) :
    (traceTxns c ts ans).filter Event.notDiag = traceTxns (cfgWithLog c false) ts ans := by
  induction ts generalizing ans with
  | nil => rfl
  | cons bs ts ih => rw [traceTxns, traceTxns, List.filter_append, filter_traceTxn, ih, readCount_cfgWithLog]

end

/-! Two runs that differ in LOG_ENABLED. -/

/-- `s` with LOG_ENABLED set to `b`. -/
def State.withLog (s : State) (b : Bool) : State := { s with cfg := cfgWithLog s.cfg b }

/-- `t`, and `t'` whose channel is set to `b`, both from the trace `es`: their new events differ in DIAG_NACK events
alone, with the channel off there is none, and nothing else differs. -/
def SameButDiag (b : Bool) (es : List Event) (t t' : State) : Prop :=
  ∃ seg seg' : List Event, t.trace = es ++ seg ∧ t'.trace = es ++ seg' ∧
    seg'.filter Event.notDiag = seg.filter Event.notDiag ∧ (b = false → seg'.all Event.notDiag) ∧
    { t' with cfg := t.cfg, events := t.events } = t

section
variable (s : State) (b : Bool)

@[simp] theorem withLog_cfg : (s.withLog b).cfg = cfgWithLog s.cfg b := rfl

@[simp] theorem withLog_answer : (s.withLog b).answer = s.answer := rfl

@[simp] theorem withLog_dispOn : (s.withLog b).dispOn = s.dispOn := rfl

@[simp] theorem withLog_configured : (s.withLog b).configured = s.configured := rfl

/-- The two states before the run. -/
theorem sameButDiag_withLog : SameButDiag b s.trace s (s.withLog b) :=
  ⟨[], [], (List.append_nil _).symm, (List.append_nil _).symm, rfl, fun _ => rfl, rfl⟩

/-- Bus events recorded before the run are among its events. -/
theorem SameButDiag.of_record {b : Bool} {es pre : List Event} {t t' : State} (h : SameButDiag b (es ++ pre) t t')
    (hpre : pre.all Event.notDiag = true) : SameButDiag b es t t' := by
  obtain ⟨seg, seg', ht, ht', hfilter, hoff, hrest⟩ := h
  refine ⟨pre ++ seg, pre ++ seg', ?_, ?_, ?_, fun hb => ?_, hrest⟩
  · rw [ht, List.append_assoc]
  · rw [ht', List.append_assoc]
  · rw [List.filter_append, List.filter_append, hfilter]
  · rw [List.all_append, hpre, hoff hb, Bool.and_self]

/-- Driving the lines with events that a configuration gives, where the channel alone steers its DIAG_NACK events. -/
theorem sameButDiag_drive (evs : Config → List Event)
    (hevs : ∀ c, (evs c).filter Event.notDiag = evs (cfgWithLog c false)) (k : Level) (d : DioDir) (l : Level) :
    SameButDiag b s.trace (s.drive (evs s.cfg) k d l) ((s.withLog b).drive (evs (cfgWithLog s.cfg b)) k d l) := by
  refine ⟨evs s.cfg, evs (cfgWithLog s.cfg b), drive_trace s _ k d l, drive_trace (s.withLog b) _ k d l, ?_, ?_, rfl⟩
  · rw [hevs, hevs]
    rfl
  · rintro rfl
    rw [← hevs, List.all_filter]
    simp

/-- Counting bytes and using answers do not depend on the channel. -/
theorem sameButDiag_counted_drive (m r n : Nat) (evs : Config → List Event)
    (hevs : ∀ c, (evs c).filter Event.notDiag = evs (cfgWithLog c false)) (k : Level) (d : DioDir) (l : Level) :
    SameButDiag b s.trace (((s.counted m r).afterReads n).drive (evs s.cfg) k d l)
      ((((s.withLog b).counted m r).afterReads n).drive (evs (cfgWithLog s.cfg b)) k d l) := by
  have hcounted : (s.withLog b).counted m r = (s.counted m r).withLog b := by
    rw [counted_eq, counted_eq]
    rfl
  have hdrive := sameButDiag_drive ((s.counted m r).afterReads n) b evs hevs k d l
  rw [afterReads_trace, counted_trace, afterReads_cfg, counted_cfg] at hdrive
  rw [hcounted]
  exact hdrive

/-- A byte is the same but for its diagnostic event. -/
theorem sameButDiag_sentByte (v : Byte) : SameButDiag b s.trace (s.sentByte v) ((s.withLog b).sentByte v) :=
  sameButDiag_counted_drive s b _ _ _ (fun c => traceByte c v (ackReads s.cfg.ackSamples s.answer))
    (fun c => filter_traceByte c v _) _ _ _

/-- Transactions are the same but for their diagnostic events. -/
theorem sameButDiag_sent (ts : List (List Byte)) : SameButDiag b s.trace (s.sent ts) ((s.withLog b).sent ts) := by
  rw [State.sent, State.sent, withLog_cfg, withLog_answer, nackCount_cfgWithLog, readCount_cfgWithLog]
  exact sameButDiag_counted_drive s b _ _ _ (fun c => traceTxns c ts s.answer) (fun c => filter_traceTxns c ts _) _ _ _

end

/-! The instructions. -/

section
variable (s : State) (b : Bool)

/-- `f` does the same at `s` whatever the channel is, but for DIAG_NACK events. -/
def DiagApart (f : State → State) : Prop := SameButDiag b s.trace (f s) (f (s.withLog b))

/-- A refusal emits nothing (rule R116). -/
theorem refuse_diagApart (r : RefuseReason) : DiagApart s b (refuse r) := sameButDiag_withLog (refuse r s) b

theorem assertStart_diagApart : DiagApart s b assertStart := by
  rw [DiagApart, assertStart_eq, assertStart_eq]
  exact sameButDiag_drive s b traceStart (fun _ => rfl) _ _ _

theorem assertStop_diagApart : DiagApart s b assertStop := by
  rw [DiagApart, assertStop_eq, assertStop_eq]
  exact sameButDiag_drive s b traceStop (fun _ => rfl) _ _ _

theorem sendBit_diagApart (d : Bool) : DiagApart s b (sendBit d) := by
  rw [DiagApart, sendBit_eq, sendBit_eq]
  exact sameButDiag_drive s b (fun c => [.clkW false, waitQuarter c, .dioW d, waitQuarter c]) (fun _ => rfl) _ _ _

theorem raiseClock_diagApart : DiagApart s b raiseClock := by
  rw [DiagApart, raiseClock_eq, raiseClock_eq]
  exact sameButDiag_drive s b (fun c => [.clkW true, waitHalf c]) (fun _ => rfl) _ _ _

theorem ackPhase_diagApart : DiagApart s b fun s => (ackPhase s).2 := by
  rw [DiagApart, ackPhase_eq, ackPhase_eq]
  exact sameButDiag_drive (s.afterReads _) b (fun c => traceAck c (ackReads s.cfg.ackSamples s.answer))
    (fun c => filter_notDiag_eq_self (notDiag_traceAck c _)) _ _ _

theorem transmitByte_diagApart (v : Byte) : DiagApart s b fun s => (transmitByte v s).2 := by
  simp only [DiagApart, transmitByte_eq]
  exact sameButDiag_sentByte s b v

/-- An operation that writes registers, making `u`, and then sends transactions. -/
theorem diagApart_of_sent {f : State → State} (u : State) (ts : List (List Byte)) (hu : u.trace = s.trace)
    (h : f s = u.sent ts) (h' : f (s.withLog b) = (u.withLog b).sent ts) : DiagApart s b f := by
  rw [DiagApart, h, h', ← hu]
  exact sameButDiag_sent u b ts

/-- An operation that writes registers, making `u`, and emits nothing. -/
theorem diagApart_of_silent {f : State → State} (u : State) (hu : u.trace = s.trace)
    (h : f s = u) (h' : f (s.withLog b) = u.withLog b) : DiagApart s b f := by
  rw [DiagApart, h, h', ← hu]
  exact sameButDiag_withLog u b

/-- SETUP's two direction changes come before its transactions (42_display_commands.md rule R92). -/
theorem setupBody_diagApart : DiagApart s b setupBody := by
  have hsent := sameButDiag_sent (State.record (setupRegisters s) [.clkCfgOut, .dioCfgOut]) b (setupTxns s.cfg)
  rw [record_trace] at hsent
  rw [DiagApart, setupBody_eq, setupBody_eq]
  exact hsent.of_record rfl

theorem setBrightnessBody_diagApart (raw : Byte) : DiagApart s b (setBrightnessBody raw) := by
  rcases Bool.eq_false_or_eq_true s.dispOn with hon | hoff
  · exact diagApart_of_sent s b { s with bright := brightClass raw } _ rfl
      ((setBrightnessBody_eq s raw).trans (if_pos hon)) ((setBrightnessBody_eq (s.withLog b) raw).trans (if_pos hon))
  · have hoff := ne_true_of_eq_false hoff
    exact diagApart_of_silent s b { s with bright := brightClass raw } rfl
      ((setBrightnessBody_eq s raw).trans (if_neg hoff)) ((setBrightnessBody_eq (s.withLog b) raw).trans (if_neg hoff))

/-- The two level commands, with the level `n` that they compute from the configuration. -/
theorem diagApart_of_storeLevel {f : State → State} (n : Bits3) (h : f s = storeLevel n s)
    (h' : f (s.withLog b) = storeLevel n (s.withLog b)) : DiagApart s b f := by
  rcases Bool.eq_false_or_eq_true s.dispOn with hon | hoff
  · exact diagApart_of_sent s b { s with level := n } _ rfl (h.trans (storeLevel_of_dispOn n hon))
      (h'.trans (storeLevel_of_dispOn n hon))
  · exact diagApart_of_silent s b { s with level := n } rfl (h.trans (storeLevel_of_dispOff n hoff))
      (h'.trans (storeLevel_of_dispOff n hoff))

theorem setLevelBody_diagApart (n : Byte) : DiagApart s b (setLevelBody n) :=
  diagApart_of_storeLevel s b (clampLevel s.cfg n.toNat) rfl rfl

theorem setLevelPercentBody_diagApart (p : Byte) : DiagApart s b (setLevelPercentBody p) :=
  diagApart_of_storeLevel s b (percentLevel s.cfg p) rfl rfl

theorem turnOnBody_diagApart : DiagApart s b turnOnBody :=
  diagApart_of_sent s b { s with dispOn := true } _ rfl (turnOnBody_eq s) (turnOnBody_eq (s.withLog b))

theorem turnOffBody_diagApart : DiagApart s b turnOffBody :=
  diagApart_of_sent s b { s with dispOn := false } _ rfl (turnOffBody_eq s) (turnOffBody_eq (s.withLog b))

theorem setBlinkBody_diagApart (on : Bool) : DiagApart s b (setBlinkBody on) :=
  diagApart_of_sent s b { s with blinkOn := on } _ rfl (setBlinkBody_eq s on) (setBlinkBody_eq (s.withLog b) on)

theorem resetErrorCountersBody_diagApart : DiagApart s b resetErrorCountersBody :=
  diagApart_of_silent s b (resetErrorCountersBody s) rfl rfl rfl

theorem readCountersBody_diagApart : DiagApart s b readCountersBody :=
  diagApart_of_silent s b (readCountersBody s) rfl rfl rfl

/-- Whether a command runs does not depend on the channel. -/
theorem whenRunnable_diagApart (p : Bool) {body : State → State} (hb : DiagApart s b body) :
    DiagApart s b (whenRunnable p body) := by
  unfold DiagApart whenRunnable
  rw [withLog_configured]
  split
  · split
    · exact hb
    · exact refuse_diagApart s b _
  · exact refuse_diagApart s b _

/-- Whether SETUP runs does not depend on the channel. -/
theorem setup_diagApart :
    DiagApart s b fun s => if s.configured then refuse .alreadyConfigured s else setupBody s := by
  rw [DiagApart, withLog_configured]
  split
  · exact refuse_diagApart s b _
  · exact setupBody_diagApart s b

/-- The outcome `o`, and `o'` with the channel set to `b`: `o'` gives a next state where `o` does, the same but for
DIAG_NACK events. -/
def OutcomesDiagApart (o o' : Host.Outcome State Fault Refusal) : Prop :=
  ∀ t, o = .next t → ∃ t', o' = .next t' ∧ SameButDiag b s.trace t t'

theorem outcomesDiagApart_next {f : State → State} (hf : DiagApart s b f) :
    OutcomesDiagApart s b (.next (f s)) (.next (f (s.withLog b))) := by
  rintro t ⟨⟩
  exact ⟨_, rfl, hf⟩

/-- Whether a frame operation runs does not depend on the channel. -/
theorem outcomesDiagApart_whenBlink {op : State → State} (ho : DiagApart s b op) :
    OutcomesDiagApart s b (whenBlink op s) (whenBlink op (s.withLog b)) := by
  intro t h
  obtain ⟨hb, rfl⟩ := whenBlink_next op s t h
  exact ⟨_, whenBlink_of_blinkSupported op hb, ho⟩

/-- Every instruction is one such operation, or refused. -/
theorem exec_outcomesDiagApart (i : Instr) : OutcomesDiagApart s b (exec i s) (exec i (s.withLog b)) := by
  have runs {f : State → State} := outcomesDiagApart_next s b (f := f)
  have runnable (p : Bool) {body : State → State} (hb : DiagApart s b body) := runs (whenRunnable_diagApart s b p hb)
  have sends {f : State → State} {ts : List (List Byte)} := diagApart_of_sent s b (f := f) s ts rfl
  cases i with
  | setup => exact (runs (setup_diagApart s b) :)
  | setBrightness raw => exact runnable true (setBrightnessBody_diagApart s b raw)
  | setLevel n => exact runnable true (setLevelBody_diagApart s b n)
  | setLevelPercent p => exact runnable true (setLevelPercentBody_diagApart s b p)
  | turnOn => exact runnable true (turnOnBody_diagApart s b)
  | turnOff => exact runnable true (turnOffBody_diagApart s b)
  | setBlinkOn => exact runnable s.cfg.blinkSupported (setBlinkBody_diagApart s b true)
  | setBlinkOff => exact runnable s.cfg.blinkSupported (setBlinkBody_diagApart s b false)
  | resetErrorCounters => exact runnable s.cfg.hasCounters (resetErrorCountersBody_diagApart s b)
  | readCounters => exact runnable s.cfg.hasCounters (readCountersBody_diagApart s b)
  | uStart => exact runs (assertStart_diagApart s b)
  | uStop => exact runs (assertStop_diagApart s b)
  | uSendbit d => exact runs (sendBit_diagApart s b d)
  | uRaiseclk => exact runs (raiseClock_diagApart s b)
  | uTxbyte v => exact runs (transmitByte_diagApart s b v)
  | uAckphase => exact runs (ackPhase_diagApart s b)
  | tFixmode => exact runs (sends (txnFixMode_eq s) (txnFixMode_eq _))
  | tLeveldata n => exact runs (sends (txnLevelData_eq s n) (txnLevelData_eq _ n))
  | tPower on => exact runs (sends (txnPower_eq s on) (txnPower_eq _ on))
  | tLevelwrite n => exact runs (sends (levelWrite_eq s n) (levelWrite_eq _ n))
  | tAutomode => exact outcomesDiagApart_whenBlink s b (sends (txnAutoMode_eq s) (txnAutoMode_eq _))
  | tFramedata on => exact outcomesDiagApart_whenBlink s b (sends (txnFrameData_eq s on) (txnFrameData_eq _ on))
  | tFramewrite on => exact outcomesDiagApart_whenBlink s b (sends (frameWrite_eq s on) (frameWrite_eq _ on))

end

/-- Settles O53: every instruction runs alike under both settings, and emits alike but for DIAG_NACK events. -/
theorem diagnosticChannelChangesNothingElse : Obligations.DiagnosticChannelChangesNothingElse := by
  intro i s t b h
  obtain ⟨t', ht', seg, seg', hsame⟩ := exec_outcomesDiagApart s b i t h
  exact ⟨t', seg, seg', ht', hsame⟩

end Sys2Proof.Machine
end

section
/-!
PROOFS. 70_reset_and_hazards.md rules R129 and R145: the block right after reset, and that a run of command words ends.
-/

namespace Sys2Proof.Machine

/-- Settles O1: reset gives each register its value; the lines are not configured, so neither wire is driven; no command
is placed, so a step is idle. -/
theorem resetRegisterValues : Obligations.ResetRegisterValues :=
  fun _ => ⟨rfl, rfl, rfl, stepIdleWithoutCommand _ rfl (Nat.le_refl 0), rfl⟩

/-- Appending twice is appending. -/
theorem Appends.trans {s t u : State} (hst : Appends s t) (htu : Appends t u) : Appends s u := by
  obtain ⟨seg, rs, htrace, hresults⟩ := hst
  obtain ⟨seg', rs', htrace', hresults'⟩ := htu
  exact ⟨seg ++ seg', rs ++ rs', by rw [htrace', htrace, List.append_assoc],
    by rw [hresults', hresults, List.append_assoc]⟩

/-- Steps in a row only append to the trace and to the results, because each step does. -/
theorem runSteps_appends (n : Nat) (s t : State) (h : runSteps n s = .next t) : Appends s t := by
  induction n generalizing s with
  | zero =>
    obtain rfl : s = t := Host.Outcome.next.inj h
    exact appends_of_eq rfl rfl
  | succ n ih =>
    unfold runSteps at h
    split at h
    · rename_i u hu
      exact Appends.trans (eventsAndResultsOnlyAppended.1 s u hu) (ih u h)
    · cases h
    · cases h

/-- Settles O12: loaded words are taken one a step until the position stands at their end, and the run only appends. -/
theorem runOfCommandWordsEnds : Obligations.RunOfCommandWordsEnds := by
  intro s ws
  obtain ⟨t, ht, hend, hprogram⟩ := runSteps_takes_commands ws.length (s.load ws) rfl (Nat.zero_add _)
  obtain ⟨seg, rs, htrace, hresults⟩ := runSteps_appends ws.length (s.load ws) t ht
  refine ⟨t, seg, rs, ht, ?_, hprogram, ?_⟩
  · rw [hend, hprogram]; rfl
  · rw [State.observation, htrace, hresults]; rfl

end Sys2Proof.Machine
end

section
/-!
PROOFS. 70_reset_and_hazards.md rules R142 to R144: the delays and the reads of the operations and of the host commands.
Both follow from the number of transactions that are sent and the number of their bytes.
-/

namespace Sys2Proof.Machine

/-! The traffic of transactions in a row. -/

/-- The delays and the bytes of the transactions `ts`: `2 * H_US + 4 * Q_US` for the start and the stop of each
transaction, `8 * H_US + 20 * Q_US` for each byte (rule R142). -/
def txnsTraffic (c : Config) (ts : List (List Byte)) : Nat × Nat :=
  let k := ts.length
  let m := ts.flatten.length
  ((2 * k + 8 * m) * c.hUs + (4 * k + 20 * m) * c.qUs, m)

theorem delayTotal_traceTxns (c : Config) (ts : List (List Byte)) (ans : Nat → Bool) :
    delayTotal (traceTxns c ts ans) = (txnsTraffic c ts).1 := by
  rw [(totals_txns c ts ans).1, txnsTraffic]
  ring

/-- What is recorded from `s` to `t` delays by the first number in `total`, and its reads, which are all that the oracle
was asked, are at most ACK_SAMPLES for each of the bytes counted by the second (rules R143 and R144). -/
def Traffic (s t : State) (total : Nat × Nat) : Prop :=
  ∃ (seg : List Event) (bytes : Nat), t.trace = s.trace ++ seg ∧
    readTotal seg ≤ s.cfg.ackSamples * bytes ∧ t.dioReads = s.dioReads + readTotal seg ∧
    (delayTotal seg, bytes) = total

/-- What records nothing and reads nothing has no traffic. -/
theorem traffic_nothing {s t : State} (htrace : t.trace = s.trace) (hreads : t.dioReads = s.dioReads) :
    Traffic s t (0, 0) :=
  ⟨[], 0, by rw [htrace, List.append_nil], Nat.zero_le _, hreads, rfl⟩

/-- Sending has the traffic of its transactions. -/
theorem traffic_sent (s : State) (ts : List (List Byte)) : Traffic s (s.sent ts) (txnsTraffic s.cfg ts) := by
  have hreads := (totals_txns s.cfg ts s.answer).2
  refine ⟨traceTxns s.cfg ts s.answer, ts.flatten.length, sent_trace s ts, ?_, ?_, ?_⟩
  · rw [hreads]; exact readCount_le _ _ _
  · rw [hreads]; simp [State.sent]
  · rw [delayTotal_traceTxns]; rfl

/-- Events recorded before it that are no delays and no reads add nothing to the traffic. -/
theorem Traffic.of_record {s t : State} {es : List Event} {total : Nat × Nat} (h : Traffic (s.record es) t total)
    (hdelays : delayTotal es = 0) (hreads : readTotal es = 0) : Traffic s t total := by
  obtain ⟨seg, bytes, htrace, hbound, hcount, htotal⟩ := h
  refine ⟨es ++ seg, bytes, ?_, ?_, ?_, ?_⟩
  · rw [htrace, record_trace, List.append_assoc]
  · rwa [readTotal_append, hreads, Nat.zero_add]
  · rwa [readTotal_append, hreads, Nat.zero_add]
  · rwa [delayTotal_append, hdelays, Nat.zero_add]

/-! The operations (rule R142). -/

/-- What is recorded from `s` to `t` delays by `d`. -/
def Delays (s t : State) (d : Nat) : Prop := ∃ seg, t.trace = s.trace ++ seg ∧ delayTotal seg = d

theorem Traffic.delays {s t : State} {total : Nat × Nat} (h : Traffic s t total) : Delays s t total.1 := by
  obtain ⟨seg, _, htrace, -, -, rfl⟩ := h
  exact ⟨seg, htrace, rfl⟩

/-- An operation that sends transactions delays by their traffic. -/
theorem delays_sent (s : State) (ts : List (List Byte)) : Delays s (s.sent ts) (txnsTraffic s.cfg ts).1 :=
  (traffic_sent s ts).delays

/-- Driving the lines delays by the delays among its events. -/
theorem delays_drive (s : State) (es : List Event) (clk : Level) (dir : DioDir) (latch : Level) {d : Nat}
    (hd : delayTotal es = d) : Delays s (s.drive es clk dir latch) d :=
  ⟨es, drive_trace s es clk dir latch, hd⟩

theorem delayTotal_traceStart (c : Config) : delayTotal (traceStart c) = c.hUs + 2 * c.qUs := by
  simp only [traceStart, waitHalf, waitQuarter, delayTotal]; omega

theorem delayTotal_traceStop (c : Config) : delayTotal (traceStop c) = c.hUs + 2 * c.qUs := by
  simp only [traceStop, waitHalf, waitQuarter, delayTotal]; omega

/-- Settles O56: a signaling operation delays by its own events, a byte and an acknowledgment phase whatever is
answered, and a transaction operation by its number of transactions and bytes. -/
theorem operationDelayTotals : Obligations.OperationDelayTotals := by
  intro i s t h hi
  cases exec_uop_cases i s t hi h with
  | start => exact delays_drive s _ _ _ _ (delayTotal_traceStart s.cfg)
  | stop => exact delays_drive s _ _ _ _ (delayTotal_traceStop s.cfg)
  | sendbit b => exact delays_drive s _ _ _ _ (by simp only [waitQuarter, delayTotal]; omega)
  | raiseclk => exact delays_drive s _ _ _ _ rfl
  | txbyte v => exact ⟨_, sentByte_trace s v, (totals_byte _ _ _).1⟩
  | ackphase => exact delays_drive (s.afterReads _) _ _ _ _ (totals_ack _ _).1
  | fixmode | leveldata _ | power _ | automode _ | framedata _ _ | levelwrite _ | framewrite _ _ =>
    exact delays_sent s _

/-! The host commands (rules R143 and R144). -/

/-- A first SETUP configures the lines, which neither delays nor reads, and sends three transactions of four bytes. -/
theorem traffic_setup (s : State) :
    Traffic s (State.sent (State.record (setupRegisters s) [.clkCfgOut, .dioCfgOut]) (setupTxns s.cfg))
      (38 * s.cfg.hUs + 92 * s.cfg.qUs, 4) :=
  (traffic_sent _ (setupTxns s.cfg)).of_record (s := setupRegisters s) rfl rfl

/-- SETUP on a block that is not configured, and any other command on one that is, is not refused. -/
theorem HostCase.setup_or_effect {s t : State} {i : Instr} (h : HostCase s i t) (hpresent : i.present s.cfg = true)
    (hconfigured : i = .setup ↔ s.configured = false) :
    (i = .setup ∧ t = State.sent (State.record (setupRegisters s) [.clkCfgOut, .dioCfgOut]) (setupTxns s.cfg)) ∨
    Effect s i t := by
  rcases h with ⟨habsent, -⟩ | ⟨-, hne, hc, -⟩ | ⟨hsetup, hc, -⟩ | ⟨hsetup, -, ht⟩ | ⟨-, -, he⟩
  · exact absurd (habsent.symm.trans hpresent) Bool.false_ne_true
  · exact absurd (hconfigured.mpr hc) hne
  · exact absurd ((hconfigured.mp hsetup).symm.trans hc) Bool.false_ne_true
  · exact .inl ⟨hsetup, ht⟩
  · exact .inr he

/-- Settles O57: a command that transmits has the traffic of its transactions, and any other records nothing. -/
theorem commandDelayTotals : Obligations.CommandDelayTotals := by
  intro i s t hhost hpresent h hconfigured
  rcases (exec_host_cases s i t hhost h).setup_or_effect hpresent hconfigured with ⟨rfl, rfl⟩ | he
  · exact traffic_setup s
  cases he with
  | on | off | blinkOn _ | blinkOff _ => exact traffic_sent _ _
  | reset _ | read _ => exact traffic_nothing rfl rfl
  | levelOn _ hon | percentOn _ hon =>
    simp only [hon, if_true]
    exact traffic_sent _ _
  | brightnessOff _ hoff | levelOff _ hoff | percentOff _ hoff =>
    simp only [hoff, Bool.false_eq_true, if_false]
    exact traffic_nothing rfl rfl
  | brightnessOn raw hon =>
    simp only [hon, if_true, brightnessTxns]
    split <;> exact traffic_sent _ _

end Sys2Proof.Machine
end

section
/-!
PROOFS. 10_state.md rules R18 to R28 and 60_exceptions.md rules R116 and R126: the invariant of the machine between two
commands holds at reset, and every step keeps it. A host command on a configured block writes registers and then sends;
sending leaves the bus free whatever the lines were before, so SETUP counts as sending too.
-/

namespace Sys2Proof.Machine

/-! The invariant at reset. -/

theorem inv_resetWith {c : Config} (hc : c.wf) : Inv (State.resetWith c) where
  cfgWf := hc
  levelBounded := Nat.zero_le _
  blinkAbsent _ := rfl
  countersAbsent _ := ⟨rfl, rfl⟩
  markHasReason := ⟨fun h => absurd h Bool.false_ne_true, fun h => absurd rfl h⟩
  slotEmpty := rfl
  positionInProgram := Nat.le_refl 0
  busFree h := absurd h Bool.false_ne_true
  untouched _ := ⟨rfl, rfl, rfl, rfl, rfl, rfl, rfl, rfl, rfl, rfl, rfl⟩

/-- REF is an admitted configuration at every admitted cycle time (00_scope.md rule R6). -/
theorem refAt_wf {t : Nat} (ht : 4 ≤ t) : (Config.refAt t).wf :=
  ⟨ht, show 1 ≤ 200 by decide, rfl, show 3 ≤ (7#3).toNat by decide⟩

/-- REF's power bytes have bit 7 set, and its mode bytes have it clear. -/
theorem refPowerByte_ne_modeByte : ∀ (on : Bool) (k : Bits3),
    (if on then 0x88#8 else 0x80#8) ||| k.setWidth 8 ≠ 0x44#8 ∧
    (if on then 0x88#8 else 0x80#8) ||| k.setWidth 8 ≠ 0x40#8 := by decide

theorem powerBytesDistinct_refAt (t : Nat) : powerBytesDistinct (Config.refAt t) :=
  fun on b => refPowerByte_ne_modeByte on (code (Config.refAt t) b)

/-- Nothing is sent yet, and nothing is configured. -/
theorem sentMatches_resetWith (c : Config) : SentMatches (State.resetWith c) :=
  ⟨⟨rfl, rfl, .inl ⟨rfl, rfl⟩⟩, fun h => absurd h Bool.false_ne_true⟩

/-- Settles O2: reset meets each part in every admitted configuration, and REF is one whatever its cycle time. -/
theorem resetMeetsInvariant : Obligations.ResetMeetsInvariant :=
  ⟨inv_resetWith (refAt_wf (Nat.le_add_right 4 _)), powerBytesDistinct_refAt _, sentMatches_resetWith _⟩

/-! What keeps the invariant. -/

/-- No clamped level is above MAX_LEVEL (42_display_commands.md rule R94). -/
theorem clampLevel_toNat_le (c : Config) (n : Nat) : (clampLevel c n).toNat ≤ c.maxLevel.toNat := by
  rw [clampLevel_toNat]
  exact Nat.min_le_right _ _

section
variable {s t : State} {i : Instr}

/-- A refusal sets the mark and records a reason. -/
theorem Inv.refuse (h : Inv s) (r : RefuseReason) : Inv (refuse r s) :=
  { h with
    markHasReason := by
      rw [refuse_refused, refuse_refuseReason]
      split <;> simp [*] }

/-- The position moves past a pending command (10_state.md rule R16). -/
theorem Inv.advance (h : Inv s) (hp : s.position < s.program.length) : Inv (advance s) :=
  { h with positionInProgram := hp }

/-- On a configured block the display registers may be written, within the bounds of 10_state.md rules R18 and R22. -/
theorem Inv.store (h : Inv s) (hc : s.configured = true) {n : Bits3} {k : BrightClass} {d b : Bool}
    (hlevel : n.toNat ≤ s.cfg.maxLevel.toNat) (hblink : s.cfg.blinkSupported = false → b = false) :
    Inv { s with level := n, bright := k, dispOn := d, blinkOn := b } :=
  { h with
    levelBounded := hlevel
    blinkAbsent := hblink
    untouched := fun hn => absurd hc (ne_true_of_eq_false hn) }

/-- Sending leaves the bus free, and counts only where the counters exist. -/
theorem Inv.sent {ts : List (List Byte)} (h : Inv s) (hc : s.configured = true) : Inv (s.sent ts) where
  cfgWf := by simpa only [sent_cfg] using h.cfgWf
  levelBounded := by simpa only [sent_level, sent_cfg] using h.levelBounded
  blinkAbsent := by simpa only [sent_blinkOn, sent_cfg] using h.blinkAbsent
  countersAbsent hn := by
    rw [sent_cfg] at hn
    simpa [sent_errCnt, sent_attCnt, hn] using h.countersAbsent hn
  markHasReason := by simpa only [sent_refused, sent_refuseReason] using h.markHasReason
  slotEmpty := (sent_seqSlot s ts).trans h.slotEmpty
  positionInProgram := by simpa only [sent_position, sent_program] using h.positionInProgram
  busFree _ := by
    obtain ⟨hclk, -⟩ := h.busFree hc
    exact ⟨(sent_clkDir s ts).trans hclk, sent_dioDir s ts, sent_clkLvl s ts, sent_dioLatch s ts⟩
  untouched hn := absurd ((sent_configured s ts).trans hc) (ne_true_of_eq_false hn)

/-- SETUP sends from a block whose lines may be in any condition: with the bus taken as free already, its initial
registers meet the invariant, and what is sent does not depend on the lines. -/
theorem Inv.setup (h : Inv s) (es : List Event) (ts : List (List Byte)) :
    Inv (State.sent (State.record (setupRegisters s) es) ts) := by
  have hfree : Inv (State.drive (setupRegisters s) es (.known true) .out (.known true)) :=
    { h with
      levelBounded := Nat.zero_le _
      blinkAbsent := fun _ => rfl
      busFree := fun _ => ⟨rfl, rfl, rfl, rfl⟩
      untouched := fun hn => absurd rfl (ne_true_of_eq_false hn) }
  rw [← drive_sent]
  exact hfree.sent rfl

/-- A command that runs on a configured block stores within the bounds, and then sends or not. -/
theorem Effect.inv (he : Effect s i t) (hc : s.configured = true) (h : Inv s) : Inv t := by
  cases he with
  | brightnessOff _ _ => exact h.store hc h.levelBounded h.blinkAbsent
  | levelOff n _ => exact h.store hc (clampLevel_toNat_le _ _) h.blinkAbsent
  | percentOff p _ => exact h.store hc (percentLevel_toNat_le _ _) h.blinkAbsent
  | brightnessOn _ _ | on | off => exact .sent (h.store hc h.levelBounded h.blinkAbsent) hc
  | levelOn n _ => exact .sent (h.store hc (clampLevel_toNat_le _ _) h.blinkAbsent) hc
  | percentOn p _ => exact .sent (h.store hc (percentLevel_toNat_le _ _) h.blinkAbsent) hc
  | blinkOn hb => exact .sent (h.store hc h.levelBounded fun hn => absurd hb (ne_true_of_eq_false hn)) hc
  | blinkOff _ => exact .sent (h.store hc h.levelBounded fun _ => rfl) hc
  | reset _ =>
    exact { h with
      countersAbsent := fun _ => ⟨rfl, rfl⟩
      untouched := fun hn => absurd hc (ne_true_of_eq_false hn) }
  | read _ => exact { h with }

/-- Every host command keeps the invariant: refused, as SETUP, or by its effect. -/
theorem HostCase.inv (hcase : HostCase s i t) (h : Inv s) : Inv t := by
  rcases hcase with ⟨-, rfl⟩ | ⟨-, -, -, rfl⟩ | ⟨-, -, rfl⟩ | ⟨-, -, rfl⟩ | ⟨-, hc, he⟩
  · exact h.refuse _
  · exact h.refuse _
  · exact h.refuse _
  · exact h.setup _ _
  · exact he.inv hc h

end

/-- Settles O3: with the sequencer slot empty a step is idle, or it takes a pending word that is refused or runs. -/
theorem stepKeepsInvariant : Obligations.StepKeepsInvariant := by
  intro s t h hstep
  rcases step_cases s t hstep with
    ⟨w, i, hslot, -, -⟩ | ⟨-, -, rfl⟩ | ⟨w, r, -, hw, -, rfl⟩ | ⟨w, i, u, -, hw, hdec, hu, rfl⟩
  · exact absurd (hslot.symm.trans h.slotEmpty) (by simp)
  · exact h
  · obtain ⟨hp, -⟩ := List.getElem?_eq_some_iff.mp hw
    exact (h.refuse r).advance hp
  · obtain ⟨hp, -⟩ := List.getElem?_eq_some_iff.mp hw
    obtain ⟨-, hprogram, hposition, -⟩ := exec_kept i s u hu
    refine ((exec_host_cases s i u (decode_ok _ _ _ hdec).1 hu).inv h).advance ?_
    rwa [hprogram, hposition]

end Sys2Proof.Machine
end

section
/-!
PROOFS. 30_encoding.md rules R49 and R58: the tables' words, written out. Each is the encoding of its instruction, and
the decoders undo the encoder.
-/

namespace Sys2Proof

/-- A level's argument byte, written as its two fields. -/
theorem zero_append_level : ∀ n : Bits3, (0#5 ++ n : Byte) = n.setWidth 8 := by decide

/-- Settles O17: row by row, by the instruction that the word encodes. -/
theorem specWordsDecode : Obligations.SpecWordsDecode := by
  refine ⟨fun c x => ?_, fun c hb => ?_, fun c hh => ?_, ?_, ?_⟩
  · exact ⟨decode_encode c .setup rfl rfl, decode_encode c (.setBrightness x) rfl rfl,
      decode_encode c (.setLevel x) rfl rfl, decode_encode c (.setLevelPercent x) rfl rfl,
      decode_encode c .turnOn rfl rfl, decode_encode c .turnOff rfl rfl⟩
  · exact ⟨decode_encode c .setBlinkOn rfl hb, decode_encode c .setBlinkOff rfl hb⟩
  · exact ⟨decode_encode c .resetErrorCounters rfl hh, decode_encode c .readCounters rfl hh⟩
  · exact ⟨decodeUop_encode .uStart rfl, decodeUop_encode .uStop rfl, decodeUop_encode (.uSendbit false) rfl,
      decodeUop_encode (.uSendbit true) rfl, decodeUop_encode .uRaiseclk rfl,
      fun v => decodeUop_encode (.uTxbyte v) rfl, decodeUop_encode .uAckphase rfl⟩
  · simp only [zero_append_level]
    exact ⟨decodeUop_encode .tFixmode rfl, fun n => decodeUop_encode (.tLeveldata n) rfl,
      decodeUop_encode (.tPower false) rfl, decodeUop_encode (.tPower true) rfl, decodeUop_encode .tAutomode rfl,
      decodeUop_encode (.tFramedata false) rfl, decodeUop_encode (.tFramedata true) rfl,
      fun n => decodeUop_encode (.tLevelwrite n) rfl, decodeUop_encode (.tFramewrite false) rfl,
      decodeUop_encode (.tFramewrite true) rfl⟩

end Sys2Proof
end
